-- ==== Sys2Proof/Word.lean ====
section
/-! DEFINITION. The widths of the block: the 32-bit register word and the byte of a buffer (R7, R200). -/
namespace Sys2Proof

/-- A host-visible register's value: 32 bits (R7). Signed registers are read with `toInt`, unsigned ones with
`toNat` (R22). -/
abbrev Word := BitVec 32

/-- One element of a buffer: an integer in [0, 255] (R200). -/
abbrev Byte := BitVec 8

end Sys2Proof
end

