-- ==== Sys2Proof/Config.lean ====
section
/-! DEFINITION. What an implementation of the block fixes (R7 to R11), the names of its three buffers (R200), and the
one free value of the model: a buffer byte nothing has written since reset (R221). -/
namespace Sys2Proof

/-- The clamp's tie rule, the parameter `ROUND_TIE` (R11): `HALF_AWAY` or `HALF_EVEN`. -/
inductive RoundTie where
  | halfAway
  | halfEven
deriving DecidableEq, Repr

/-- The implementation parameters of R8, R10 and R11, left open by the spec. The state carries them and no action
writes them, so a statement about every state is a statement about every implementation (assumption log 1). -/
structure Params where
  /-- `MAX_WIDTH` (R8). -/
  maxWidth  : Nat
  /-- `MAX_HEIGHT` (R8). -/
  maxHeight : Nat
  /-- `KMAX_ROWS` (R10). -/
  kmaxRows  : Nat
  /-- `KMAX_COLS` (R10). -/
  kmaxCols  : Nat
  /-- `ROUND_TIE` (R11). -/
  roundTie  : RoundTie
deriving DecidableEq, Repr

/-- The constraints R8 and R10 put on the parameters. -/
abbrev Params.legal (p : Params) : Prop :=
  1 ≤ p.maxWidth ∧ 1 ≤ p.maxHeight ∧ 4 * p.maxWidth * p.maxHeight ≤ 2 ^ 32 - 1 ∧
    3 ≤ p.kmaxRows ∧ 5 ≤ p.kmaxCols ∧ p.kmaxRows * p.kmaxCols ≤ 256

/-- The parameter values of spec/95_test_vectors.md, with the spec's documented tie rule `HALF_AWAY` (R11): the ones
`State.reset` carries. DESIGN CHOICE: the spec leaves them open (assumption log 1). -/
def Params.vectors : Params :=
  { maxWidth := 64, maxHeight := 64, kmaxRows := 4, kmaxCols := 8, roundTie := .halfAway }

/-- `IN_CAP = WORK_CAP = 4 · MAX_WIDTH · MAX_HEIGHT` (R9). -/
def Params.imageCap (p : Params) : Nat := 4 * p.maxWidth * p.maxHeight

/-- `ceil(W / 8)`, the packed bytes of one row, `BPR` (R205). -/
def bytesPerRow (w : Nat) : Nat := (w + 7) / 8

/-- `OUT_CAP = ceil(MAX_WIDTH / 8) · MAX_HEIGHT` (R9). -/
def Params.outCap (p : Params) : Nat := bytesPerRow p.maxWidth * p.maxHeight

/-- How many cells a kernel array has: `KMAX_ROWS · KMAX_COLS` (R10, R122, R128). -/
def Params.kernelCells (p : Params) : Nat := p.kmaxRows * p.kmaxCols

/-- The three address spaces of R200. -/
inductive Buf where
  /-- `IN`, the image buffer (R201). -/
  | input
  /-- `WORK`, the working buffer (R202). -/
  | work
  /-- `OUT`, the packed output (R203). -/
  | output
deriving DecidableEq, Repr

/-- What byte `i` of a buffer holds while nothing has written it since the `epoch`-th reset: a draw, any byte, under
no law (R221, R900). It has no body, so no proof can see a value of it (assumption log 3). -/
opaque Config.freeByte (epoch : Nat) (b : Buf) (i : Nat) : Byte

end Sys2Proof
end

