-- ==== Sys2Proof/Syntax.lean ====
section
/-! DEFINITION. The ten one-word commands of spec/opcode_table.json (R307). -/
namespace Sys2Proof

/-- A command as the engine executes it, one constructor per row of the opcode table. `ARG` is an operand of two
commands only (R308); it is a number the command compares, never a pattern of bits. -/
inductive Instr where
  /-- `NOP` (R702). -/
  | nop
  /-- `CONFIGURE` (R456). -/
  | configure
  /-- `LOADPRESET p`, `ARG` the preset number (R458). -/
  | loadpreset (preset : Nat)
  /-- `CLAMP` (R403). -/
  | clamp
  /-- `THRESH` (R504). -/
  | thresh
  /-- `LOADWORK` (R557). -/
  | loadwork
  /-- `DIFFUSE` (R558). -/
  | diffuse
  /-- `DITHER` (R607). -/
  | dither
  /-- `PACK s`, `ARG` the source select (R654). -/
  | pack (src : Nat)
  /-- `RASTER` (R701). -/
  | raster
deriving DecidableEq, Repr

end Sys2Proof
end

