-- ==== Sys2Proof/WellFormed.lean ====
section
/-! DEFINITION. Which commands a word can carry: an `ARG` operand is an unsigned 8-bit value (R308, R314). -/
namespace Sys2Proof

/-- `LOADPRESET n` and `PACK n` take n in 0..255 (R308, R314); the other commands have no operand to check. -/
def Instr.wellFormed : Instr → Bool
  | .nop => true
  | .configure => true
  | .loadpreset p => decide (p < 256)
  | .clamp => true
  | .thresh => true
  | .loadwork => true
  | .diffuse => true
  | .dither => true
  | .pack src => decide (src < 256)
  | .raster => true

end Sys2Proof
end

