-- ==== Sys2Proof/Decode.lean ====
section
/-! DEFINITION. The command word: its fields (R306), its decoding (R311), and the encoder written from the same table
(R307). -/
namespace Sys2Proof

/-- Why a word is no command. All three are the one cause `ILLEGAL_COMMAND` to the host (R802); the names say which
check of R311 refuses it. -/
inductive DecodeError where
  /-- `OPC` is 0x0A or above (R310). -/
  | unassignedOpcode
  /-- `RSVD` is not 0 (R309). -/
  | reservedBits
  /-- `ARG` is not 0 for an opcode that takes none (R308). -/
  | unusedArg
deriving DecidableEq, Repr

/-- `{a, b, c, d}`, four bytes joined into a word, `a` the most significant (R20). -/
def joinBytes (a b c d : Byte) : Word := BitVec.cast rfl (a ++ (b ++ (c ++ d)))

/-- `OPC`, bits 31:24 of the word (R306). -/
def opcField (w : Word) : BitVec 8 := w.extractLsb' 24 8

/-- `RSVD`, bits 23:8 of the word (R306). -/
def rsvdField (w : Word) : BitVec 16 := w.extractLsb' 8 16

/-- `ARG`, bits 7:0 of the word (R306), read unsigned (R308). -/
def argField (w : Word) : BitVec 8 := w.extractLsb' 0 8

/-- The opcode of each command (R307). -/
def opcodeOf : Instr → BitVec 8
  | .nop => 0x00
  | .configure => 0x01
  | .loadpreset _ => 0x02
  | .clamp => 0x03
  | .thresh => 0x04
  | .loadwork => 0x05
  | .diffuse => 0x06
  | .dither => 0x07
  | .pack _ => 0x08
  | .raster => 0x09

/-- The command of an assigned opcode with its `ARG` (R307, R308); none for the unassigned opcodes (R310). -/
def instrOfOpcode (opc arg : Nat) : Option Instr :=
  match opc with
  | 0x00 => some .nop
  | 0x01 => some .configure
  | 0x02 => some (.loadpreset arg)
  | 0x03 => some .clamp
  | 0x04 => some .thresh
  | 0x05 => some .loadwork
  | 0x06 => some .diffuse
  | 0x07 => some .dither
  | 0x08 => some (.pack arg)
  | 0x09 => some .raster
  | _ => none

/-- Whether the opcode uses the `ARG` field (R308). -/
def takesArg (opc : Nat) : Bool := opc == 0x02 || opc == 0x08

/-- Decoding, complete: the checks of R311 in its order. -/
def decode (w : Word) : Except DecodeError Instr :=
  match instrOfOpcode (opcField w).toNat (argField w).toNat with
  | none => .error .unassignedOpcode
  | some i =>
    if rsvdField w ≠ 0 then .error .reservedBits
    else if takesArg (opcField w).toNat = false ∧ argField w ≠ 0 then .error .unusedArg
    else .ok i

/-- The `ARG` operand a command carries, 0 where it has none (R308). -/
def argOf : Instr → Nat
  | .nop => 0
  | .configure => 0
  | .loadpreset p => p
  | .clamp => 0
  | .thresh => 0
  | .loadwork => 0
  | .diffuse => 0
  | .dither => 0
  | .pack src => src
  | .raster => 0

/-- The word of a well-formed command: `OPC` in bits 31:24, zeros in 23:8, `ARG` in 7:0 (R306, R307, R314). -/
def encode (i : Instr) : Word := joinBytes (opcodeOf i) 0 0 (BitVec.ofNat 8 (argOf i))

/-- The command read from a table row's `nbits` bits `w`, the bits above them 0 (R306: one word, bit 0 the least
significant, R20). -/
def decodeTableWord (nbits w : Nat) : Option Instr :=
  match decode (BitVec.ofNat 32 (w % 2 ^ nbits)) with
  | .ok i => some i
  | .error _ => none

end Sys2Proof
end

