-- ==== Sys2Proof/Machine/KernelArray.lean ====
section
/-! DEFINITION. The kernel arrays `S_KW` and `CFG_KW` (R122, R128): `KMAX_ROWS × KMAX_COLS` cells, cell `[r][c]` at
offset `r · KMAX_COLS + c` (assumption log 11); and the two preset kernels (R455). -/
namespace Sys2Proof.Machine

/-- The offset of cell `[r][c]` from its array's first index (R122, R128). -/
def cellOffset (p : Params) (r c : Nat) : Nat := r * p.kmaxCols + c

/-- The value of cell `[r][c]` of a kernel array. -/
def cellAt (p : Params) (kw : List Word) (r c : Nat) : Word := kw.getD (cellOffset p r c) 0

/-- The array of `KMAX_ROWS × KMAX_COLS` cells whose cell `[r][c]` is `f r c`. -/
def tabulateCells (p : Params) (f : Nat → Nat → Word) : List Word :=
  (List.range p.kernelCells).map fun k => f (k / p.kmaxCols) (k % p.kmaxCols)

/-- The weights of `JARVIS_JUDICE_NINKE`, preset 0 (R455). -/
def jjnWeights : List (List Word) := [[0, 0, 0, 7, 5], [3, 5, 7, 5, 3], [1, 3, 5, 3, 1]]

/-- The weights of `ATKINSON`, preset 1 (R455). -/
def atkinsonWeights : List (List Word) := [[0, 0, 1, 1], [1, 1, 1, 0], [0, 1, 0, 0]]

/-- Weight `[r][c]` of a kernel written as rows, 0 outside it. -/
def weightAt (k : List (List Word)) (r c : Nat) : Word := (k.getD r []).getD c 0

/-- The Jarvis-Judice-Ninke weights padded with 0: what both kernel arrays hold at reset (R122, R128, R900). -/
def jjnCells (p : Params) : List Word := tabulateCells p (weightAt jjnWeights)

end Sys2Proof.Machine
end

