-- ==== Sys2Proof/Machine/State.lean ====
section
/-! DEFINITION. The complete state of the block (R136), the host's actions it is driven by (R705 to R708, R900), and
the state after reset (R900). -/
namespace Sys2Proof.Machine

/-- One buffer's written bytes, (index, byte) pairs, indices strictly rising; an unlisted index holds no written value
(R200, R221). -/
abbrev Memory := List Host.Cell

/-- One transaction of the host port, in the order the host makes them (R315, R705 to R708, R900). A command is a
`set` of index 0x000, `CMD` (R103, R315). -/
inductive HostAction where
  /-- `GET`: read the register of this index (R705). -/
  | get (index : Nat)
  /-- `SET`: write the register of this index (R706). -/
  | set (index : Nat) (v : Word)
  /-- `RDB`: read a buffer byte (R707). -/
  | rdb (b : Buf) (i : Nat)
  /-- `WRB`: write a buffer byte (R708). -/
  | wrb (b : Buf) (i : Nat) (v : Byte)
  /-- `RESET`, and power-on (R900). -/
  | reset
deriving DecidableEq, Repr

/-- What a host read returned (R705, R707). -/
inductive HostReply where
  /-- The 32-bit value a `GET` returned. -/
  | word (v : Word)
  /-- The byte an `RDB` returned. -/
  | byte (v : Byte)
deriving DecidableEq, Repr

/-- The staging registers `S_…`, the inputs of `CONFIGURE` (R117 to R122). -/
structure Staged where
  /-- `S_KROWS` (R117). -/
  krows  : Word
  /-- `S_KCOLS` (R118). -/
  kcols  : Word
  /-- `S_DIV`, signed (R119). -/
  div    : Word
  /-- `S_THR_NUM`, signed (R120). -/
  thrNum : Word
  /-- `S_THR_DEN` (R121). -/
  thrDen : Word
  /-- `S_KW[r][c]`, signed, row by row (R122). -/
  kw     : List Word
deriving DecidableEq, Repr

/-- The configuration registers `CFG_…`, the tuple of R450, which only `CONFIGURE` writes (R123 to R128, R130). -/
structure Configuration where
  /-- `CFG_KROWS` (R123). -/
  krows  : Word
  /-- `CFG_KCOLS` (R124). -/
  kcols  : Word
  /-- `CFG_DIV` (R125). -/
  div    : Word
  /-- `CFG_THR` (R126). -/
  thr    : Word
  /-- `CFG_ANCHOR`, signed (R127). -/
  anchor : Word
  /-- `CFG_KW[r][c]`, signed, row by row (R128). -/
  kw     : List Word
deriving DecidableEq, Repr

/-- The state: the registers of R104 to R128 and the buffers of R200 (R136); the parameters the model takes as an
argument (R8 to R11); and the host's side of the port, its actions still to come and the values it has read (R100,
R711). -/
structure State where
  /-- `MAX_WIDTH`, `MAX_HEIGHT`, `KMAX_ROWS`, `KMAX_COLS`, `ROUND_TIE`; no action writes it (R136, assumption log 1). -/
  params   : Params
  /-- `STATUS` (R104). -/
  status   : Word
  /-- `WIDTH` (R105). -/
  width    : Word
  /-- `HEIGHT` (R106). -/
  height   : Word
  /-- `IN_LEN` (R107). -/
  inLen    : Word
  /-- `WORK_LEN` (R108). -/
  workLen  : Word
  /-- `OUT_LEN` (R109). -/
  outLen   : Word
  /-- `POS_X` (R110). -/
  posX     : Word
  /-- `POS_Y` (R111). -/
  posY     : Word
  /-- `PIX_ORIG` (R112). -/
  pixOrig  : Word
  /-- `PIX_QUANT` (R113). -/
  pixQuant : Word
  /-- `CLAMP_NUM`, signed (R114). -/
  clampNum : Word
  /-- `CLAMP_DEN` (R115). -/
  clampDen : Word
  /-- `CLAMP_OUT` (R116). -/
  clampOut : Word
  /-- The staging registers (R117 to R122). -/
  staged   : Staged
  /-- The configuration registers (R123 to R128). -/
  cfg      : Configuration
  /-- `IN` (R201). -/
  inBuf    : Memory
  /-- `WORK` (R202). -/
  workBuf  : Memory
  /-- `OUT` (R203). -/
  outBuf   : Memory
  /-- How many resets came before this run of the buffers: it tells one reset's draws from another's (R221, assumption
  log 3). The model's own field. -/
  epoch    : Nat
  /-- The host's actions still to come, next first (R100, R711, assumption log 2). The model's own field. -/
  host     : List HostAction
  /-- What the host's reads have returned, latest first (R705, R707, assumption log 2). The model's own field. -/
  replies  : List HostReply
deriving DecidableEq, Repr

/-- The block stops with no fault of the model's: what the spec calls a fault is recorded in `STATUS` and the block
goes on (R811, R813), and nothing of it is stuck or hangs (R815). So no step raises one, and the type has no
constructor (DEDUCED, assumption log 4). -/
inductive Fault where
deriving DecidableEq, Repr

/-- What a step has no result for. -/
inductive Refusal where
  /-- A command `exec` has no meaning for; raised by an arm of `exec` only, and by none now. Safe. -/
  | notModelled (mnemonic : String)
  /-- A host read `RDB` of a byte of `WORK` or `OUT` at or above its valid length and below its capacity: the spec
  gives the read no step (R211, R815). Raised by `RDB` alone, by no command. Safe: it errs toward unprovable (assumption
  log 7). -/
  | undefinedByte (b : Buf) (i : Nat)
deriving DecidableEq, Repr

/-- The staging registers at reset: the inputs of the default configuration (R117 to R122, R900). -/
def Staged.atReset (p : Params) : Staged :=
  { krows := 3, kcols := 5, div := 48, thrNum := 128, thrDen := 1, kw := jjnCells p }

/-- The configuration registers at reset: the default configuration (R123 to R128, R454, R900). -/
def Configuration.atReset (p : Params) : Configuration :=
  { krows := 3, kcols := 5, div := 48, thr := 128, anchor := 2, kw := jjnCells p }

/-- The block of parameters `p` right after reset (R900), with no host action placed. -/
def State.resetWith (p : Params) : State :=
  { params := p, status := 0, width := 0, height := 0, inLen := 0, workLen := 0, outLen := 0, posX := 0, posY := 0,
    pixOrig := 0, pixQuant := 0, clampNum := 0, clampDen := 1, clampOut := 0, staged := Staged.atReset p,
    cfg := Configuration.atReset p, inBuf := [], workBuf := [], outBuf := [], epoch := 0, host := [], replies := [] }

/-- The machine right after reset, with the parameters of `Params.vectors` (R900, assumption log 1). -/
def State.reset : State := State.resetWith Params.vectors

end Sys2Proof.Machine
end

