-- ==== Sys2Proof/Machine/Flags.lean ====
section
/-! DEFINITION. `STATUS`, which holds the block's only flag (R104, R132), and the cause codes (R801). -/
namespace Sys2Proof.Machine

/-- The causes a fault can record (R801); `NONE`, code 0, is the value while no fault is recorded. -/
inductive Cause where
  /-- Decode of a word written to `CMD` (R802). -/
  | illegalCommand
  /-- `WIDTH` or `HEIGHT` out of range (R803). -/
  | badDimension
  /-- The image buffer is not `4 · WIDTH · HEIGHT` bytes (R804). -/
  | badLength
  /-- A staged kernel count out of range (R805). -/
  | kernelShape
  /-- Row 0 of the staged kernel is all zero (R806). -/
  | kernelRow0Zero
  /-- Another operand out of range (R807). -/
  | badOperand
  /-- A host access the port does not allow (R808). -/
  | illegalAccess
deriving DecidableEq, Repr

/-- The code of a cause (R801). -/
def causeCode : Cause → BitVec 8
  | .illegalCommand => 1
  | .badDimension => 2
  | .badLength => 3
  | .kernelShape => 4
  | .kernelRow0Zero => 5
  | .badOperand => 6
  | .illegalAccess => 7

/-- `STATUS.FAULT`, bit 0 (R104). -/
def statusFault (v : Word) : Bool := v.getLsbD 0

/-- `STATUS.CAUSE`, bits 15:8 (R104). -/
def statusCause (v : Word) : BitVec 8 := v.extractLsb' 8 8

/-- `STATUS.FAULT_OPC`, bits 23:16 (R104). -/
def statusFaultOpc (v : Word) : BitVec 8 := v.extractLsb' 16 8

/-- The word fault entry writes to `STATUS`: `{0x00, opc, cause, 0b0000000, 1}` (R811). -/
def faultStatus (c : Cause) (opc : BitVec 8) : Word := joinBytes 0 opc (causeCode c) 1

/-- `STATUS.FAULT` = 1: the block has recorded a fault since reset (R800). -/
def State.faulted (s : State) : Bool := statusFault s.status

end Sys2Proof.Machine
end

