-- ==== Sys2Proof/Machine/Ops.lean ====
section
/-! DEFINITION. The operations the commands and the host actions share: byte memory, buffer access, the loop of R26,
one setter per group of results, taking a fault, and reset, the only way out of one. -/
namespace Sys2Proof.Machine

/-- `for v in 0..n-1` (R26): `body` for 0, 1, …, n - 1 in this order; none when `n` is 0. -/
def forRange {α : Type} : Nat → (Nat → α → α) → α → α
  | 0, _, a => a
  | n + 1, body, a => body n (forRange n body a)

/-! ## Byte memory -/

/-- The canonical form of a buffer: indices strictly rising. An unlisted index holds no written value, so no entry can
equal it. -/
abbrev Memory.wf (m : Memory) : Prop := (m.map Prod.fst).Pairwise (· < ·)

/-- The byte written at an index, if one has been (R221). -/
def Memory.lookup : Memory → Nat → Option Byte
  | [], _ => none
  | (a, b) :: m, i => if a = i then some b else Memory.lookup m i

/-- Writes one byte, keeping the indices rising. -/
def Memory.insert : Memory → Nat → Byte → Memory
  | [], i, v => [(i, v)]
  | (a, b) :: m, i, v =>
    if i < a then (i, v) :: (a, b) :: m
    else if i = a then (i, v) :: m
    else (a, b) :: Memory.insert m i v

/-! ## Buffers -/

/-- The bytes written to a buffer (R200); the three never alias (R222). -/
def State.buf (s : State) : Buf → Memory
  | .input => s.inBuf
  | .work => s.workBuf
  | .output => s.outBuf

/-- The state with one buffer's bytes replaced. -/
def State.setBuf (s : State) : Buf → Memory → State
  | .input, m => { s with inBuf := m }
  | .work, m => { s with workBuf := m }
  | .output, m => { s with outBuf := m }

/-- How many bytes a buffer has (R9). -/
def bufCap (p : Params) : Buf → Nat
  | .input => p.imageCap
  | .work => p.imageCap
  | .output => p.outCap

/-- `MemRead(B:i, 1)` (R24): the byte written there, or this reset's draw where none has been (R221). -/
def State.readByte (s : State) (b : Buf) (i : Nat) : Byte :=
  ((s.buf b).lookup i).getD (Config.freeByte s.epoch b i)

/-- `MemRead(B:i, n)` (R24): `n` bytes in index order. -/
def State.readBytes (s : State) (b : Buf) (i n : Nat) : List Byte :=
  (List.range n).map fun k => s.readByte b (i + k)

/-- `MemWrite(B:i, 1, [v])` (R24). -/
def State.writeByte (s : State) (b : Buf) (i : Nat) (v : Byte) : State :=
  s.setBuf b ((s.buf b).insert i v)

/-- `MemWrite(B:i, n, vs)` (R24): the bytes of the list at successive indices. -/
def State.writeBytes (s : State) (b : Buf) (i : Nat) : List Byte → State
  | [] => s
  | v :: vs => State.writeBytes (s.writeByte b i v) b (i + 1) vs

/-! ## Results -/

/-- Writes `STATUS`; fault entry alone uses it (R104). -/
def State.setStatus (s : State) (v : Word) : State := { s with status := v }

/-- Writes `WORK_LEN` (R108). -/
def State.setWorkLen (s : State) (v : Word) : State := { s with workLen := v }

/-- Writes `OUT_LEN` (R109). -/
def State.setOutLen (s : State) (v : Word) : State := { s with outLen := v }

/-- Writes `PIX_QUANT` (R113). -/
def State.setPixQuant (s : State) (v : Word) : State := { s with pixQuant := v }

/-- Writes `CLAMP_OUT` (R116). -/
def State.setClampOut (s : State) (v : Word) : State := { s with clampOut := v }

/-- Writes the staging registers (R117 to R122). -/
def State.setStaged (s : State) (v : Staged) : State := { s with staged := v }

/-- Writes the configuration registers, all together (R130). -/
def State.setCfg (s : State) (v : Configuration) : State := { s with cfg := v }

/-- Replaces the host's actions still to come. -/
def State.setHost (s : State) (v : List HostAction) : State := { s with host := v }

/-- Gives the host the result of a read (R705, R707). -/
def State.reply (s : State) (r : HostReply) : State := { s with replies := r :: s.replies }

/-! ## Faults and reset -/

/-- Fault entry (R811): the first fault since reset is recorded in `STATUS`, a later one changes nothing; nothing else
is saved and control goes nowhere. -/
def State.raise (s : State) (c : Cause) (opc : BitVec 8) : State :=
  if s.faulted then s else s.setStatus (faultStatus c opc)

/-- Reset (R900), the only exit from a fault (R814): every register at its reset value, every buffer byte a fresh draw.
The parameters, and the host's own side of the port, are not the block's to reset (DESIGN CHOICE, assumption log 6). -/
def State.resetBlock (s : State) : State :=
  { State.resetWith s.params with epoch := s.epoch + 1, host := s.host, replies := s.replies }

/-- The first check of a list that fails, a failed check given as `true` (R810). -/
def firstCause : List (Bool × Cause) → Option Cause
  | [] => none
  | (bad, c) :: rest => if bad then some c else firstCause rest

/-- Runs a decoded command: its checks in order, the first that fails raised with the command's opcode; when all
pass, its effect. No check stands after a write, so faults are precise (R25, R810, R812). -/
def State.runCommand (s : State) (i : Instr) (checks : List (Bool × Cause)) (effect : State) :
    Host.Outcome State Fault Refusal :=
  match firstCause checks with
  | some c => .next (s.raise c (opcodeOf i))
  | none => .next effect

end Sys2Proof.Machine
end

