-- ==== Sys2Proof/Machine/Operands.lean ====
section
/-! DEFINITION. Operand forms: pixels in registers and in buffers (R204, R300, R305), the image's size and its checks
(R803, R804), and the weights of the configured kernel (R450). Rational operands are kept as numerator and
denominator (R313). -/
namespace Sys2Proof.Machine

/-- A pixel: four bytes, in the order R, G, B, A (R300). -/
structure Pixel where
  /-- Red. -/
  R : Byte
  /-- Green. -/
  G : Byte
  /-- Blue. -/
  B : Byte
  /-- Alpha. -/
  A : Byte
deriving DecidableEq, Repr

/-- A register value read as a pixel: `[v[7:0], v[15:8], v[23:16], v[31:24]]` (R305). -/
def pixelOfWord (v : Word) : Pixel :=
  { R := v.extractLsb' 0 8, G := v.extractLsb' 8 8, B := v.extractLsb' 16 8, A := v.extractLsb' 24 8 }

/-- A pixel written to a register: `{p.A, p.B, p.G, p.R}` (R305). -/
def wordOfPixel (p : Pixel) : Word := joinBytes p.A p.B p.G p.R

/-- A pixel's bytes in buffer order (R204). -/
def pixelBytes (p : Pixel) : List Byte := [p.R, p.G, p.B, p.A]

/-- `pix(x, y) = 4 · (y · W + x)`, the index of a pixel's first byte (R204). -/
def pixelIndex (w x y : Nat) : Nat := 4 * (y * w + x)

/-- Pixel `(x, y)` of the image of width `w` a buffer holds (R204). -/
def State.readPixel (s : State) (b : Buf) (w x y : Nat) : Pixel :=
  let i := pixelIndex w x y
  { R := s.readByte b i, G := s.readByte b (i + 1), B := s.readByte b (i + 2), A := s.readByte b (i + 3) }

/-- `W`, the image width in pixels (R105). -/
def State.imageW (s : State) : Nat := s.width.toNat

/-- `H`, the image height in pixels (R106). -/
def State.imageH (s : State) : Nat := s.height.toNat

/-- `4 · W · H`, the bytes of an image (R301). -/
def State.imageBytes (s : State) : Nat := 4 * s.imageW * s.imageH

/-- `ceil(W / 8) · H`, the bytes of the packed output (R303). -/
def State.packedBytes (s : State) : Nat := bytesPerRow s.imageW * s.imageH

/-- The check of R803: `WIDTH` or `HEIGHT` is 0 or above its maximum. -/
def State.badDimension (s : State) : Bool :=
  decide (s.imageW < 1 ∨ s.params.maxWidth < s.imageW ∨ s.imageH < 1 ∨ s.params.maxHeight < s.imageH)

/-- The check of R804: the length register is not `4 · WIDTH · HEIGHT`. -/
def State.badLength (s : State) (len : Word) : Bool := decide (len.toNat ≠ s.imageBytes)

/-- `w[r][c]` of the configured kernel, a signed integer (R450, R313). -/
def State.weight (s : State) (r c : Nat) : Int := (cellAt s.params s.cfg.kw r c).toInt

/-- `anchor`, the configured anchor offset, read as stored (R127, R461). -/
def State.anchor (s : State) : Int := s.cfg.anchor.toInt

/-- `thr`, the configured threshold (R126). -/
def State.threshold (s : State) : Nat := s.cfg.thr.toNat

/-- `div`, the configured divisor (R125). -/
def State.divisor (s : State) : Nat := s.cfg.div.toNat

end Sys2Proof.Machine
end

