-- ==== Sys2Proof/Machine/Clamp.lean ====
section
/-! DEFINITION. The ByteClamper and `CLAMP` (spec/40_clamp.md). A rational is its numerator and its denominator
(positive), and everything is computed in the integers, exactly (R14, R400; DEDUCED from R560, assumption log 8). -/
namespace Sys2Proof.Machine

/-- `round_tie(n / d)` for `n ≥ 0` (R400): the quotient, or one more when the remainder passes one half of `d`, or
ties with it and the tie rule rounds up. -/
def roundTie (t : RoundTie) (n d : Nat) : Nat :=
  if 2 * (n % d) < d then n / d
  else if d < 2 * (n % d) then n / d + 1
  else
    match t with
    | .halfAway => n / d + 1
    | .halfEven => if n / d % 2 = 0 then n / d else n / d + 1

/-- `clamp(num / den)` (R400): an integer in [0, 255] (R401). -/
def clampRatio (t : RoundTie) (num : Int) (den : Nat) : Nat :=
  if 255 * (den : Int) < num then 255
  else if num < 0 then 0
  else roundTie t num.toNat den

/-- `CLAMP` (R403). -/
def execClamp (s : State) : Host.Outcome State Fault Refusal :=
  s.runCommand .clamp [(s.clampDen == 0, .badOperand)]
    (s.setClampOut (BitVec.ofNat 32 (clampRatio s.params.roundTie s.clampNum.toInt s.clampDen.toNat)))

end Sys2Proof.Machine
end

