-- ==== Sys2Proof/Machine/Diffuser.lean ====
section
/-! DEFINITION. The error diffuser, `LOADWORK` and `DIFFUSE` (spec/43_error_diffuser.md). -/
namespace Sys2Proof.Machine

/-- One channel of the error vector: original minus quantized (R550). -/
def channelError (o q : Byte) : Int := (o.toNat : Int) - (q.toNat : Int)

/-- `tc = x + c - anchor`, the target column of cell `(r, c)` (R551). -/
def State.targetCol (s : State) (x c : Nat) : Int := (x : Int) + c - s.anchor

/-- `tr = y + r`, the target row of cell `(r, c)` (R551). -/
def targetRow (y r : Nat) : Int := (y : Int) + r

/-- The skip rule of R552, with its tests `≤ 0` kept as they are. -/
def skipCell (wt tc tr : Int) (w h : Nat) : Bool :=
  decide (wt = 0 ∨ tc ≤ 0 ∨ (w : Int) ≤ tc ∨ tr ≤ 0 ∨ (h : Int) ≤ tr)

/-- A target's channel after the update: `clamp(old + err · wt / div)`, over the common denominator `div` (R553,
R560). -/
def diffusedByte (t : RoundTie) (div : Nat) (old : Byte) (err wt : Int) : Byte :=
  BitVec.ofNat 8 (clampRatio t ((old.toNat : Int) * div + err * wt) div)

/-- The update of the target of one cell in `WORK`: its R, G and B bytes, never its alpha (R553, R554). -/
def State.diffuseCell (s : State) (o q : Pixel) (x y w h r c : Nat) : State :=
  let wt := s.weight r c
  let tc := s.targetCol x c
  let tr := targetRow y r
  if skipCell wt tc tr w h then s
  else
    let t := s.readPixel .work w tc.toNat tr.toNat
    s.writeBytes .work (pixelIndex w tc.toNat tr.toNat)
      [ diffusedByte s.params.roundTie s.divisor t.R (channelError o.R q.R) wt,
        diffusedByte s.params.roundTie s.divisor t.G (channelError o.G q.G) wt,
        diffusedByte s.params.roundTie s.divisor t.B (channelError o.B q.B) wt ]

/-- `diffuse(WORK, o, q, x, y, W, H)` (R554): every cell of the configured kernel, row by row. -/
def State.diffuse (s : State) (o q : Pixel) (x y w h : Nat) : State :=
  forRange s.cfg.krows.toNat
    (fun r a => forRange s.cfg.kcols.toNat (fun c b => b.diffuseCell o q x y w h r c) a) s

/-- `MemWrite(WORK:0, n, MemRead(IN:0, n))` (R557, R600). -/
def State.copyImage (s : State) (n : Nat) : State := s.writeBytes .work 0 (s.readBytes .input 0 n)

/-- `LOADWORK` (R557). -/
def execLoadwork (s : State) : Host.Outcome State Fault Refusal :=
  s.runCommand .loadwork [(s.badDimension, .badDimension), (s.badLength s.inLen, .badLength)]
    ((s.copyImage s.imageBytes).setWorkLen (BitVec.ofNat 32 s.imageBytes))

/-- The check of R558: the position is outside the image. -/
def State.badPosition (s : State) : Bool := decide (s.imageW ≤ s.posX.toNat ∨ s.imageH ≤ s.posY.toNat)

/-- `DIFFUSE` (R558). -/
def execDiffuse (s : State) : Host.Outcome State Fault Refusal :=
  s.runCommand .diffuse
    [(s.badDimension, .badDimension), (s.badLength s.workLen, .badLength), (s.badPosition, .badOperand)]
    (s.diffuse (pixelOfWord s.pixOrig) (pixelOfWord s.pixQuant) s.posX.toNat s.posY.toNat s.imageW s.imageH)

end Sys2Proof.Machine
end

