-- ==== Sys2Proof/Machine/Threshold.lean ====
section
/-! DEFINITION. Luminance, the dark predicate, the thresholder and `THRESH` (spec/42_luminance_thresholder.md). -/
namespace Sys2Proof.Machine

/-- `lum1000(p) = 299·R + 587·G + 114·B` (R500). -/
def lum1000 (p : Pixel) : Nat := 299 * p.R.toNat + 587 * p.G.toNat + 114 * p.B.toNat

/-- `dark(p)`: `lum1000(p) < 1000 · thr`, strict and exact (R501). -/
def isDark (thr : Nat) (p : Pixel) : Bool := decide (lum1000 p < 1000 * thr)

/-- The quantized pixel: black or white, alpha passed through (R502, R503). -/
def thresholdPixel (thr : Nat) (p : Pixel) : Pixel :=
  if isDark thr p then { R := 0, G := 0, B := 0, A := p.A } else { R := 255, G := 255, B := 255, A := p.A }

/-- `THRESH` (R504). -/
def execThresh (s : State) : Host.Outcome State Fault Refusal :=
  s.runCommand .thresh [] (s.setPixQuant (wordOfPixel (thresholdPixel s.threshold (pixelOfWord s.pixOrig))))

end Sys2Proof.Machine
end

