-- ==== Sys2Proof/Machine/Dither.lean ====
section
/-! DEFINITION. The dither pass and `DITHER` (spec/44_dither_pipeline.md). -/
namespace Sys2Proof.Machine

/-- The step at pixel `(x, y)`: read it as it stands, threshold it, diffuse its error, store the thresholded pixel
(R602). -/
def State.ditherStep (s : State) (w h x y : Nat) : State :=
  let p := s.readPixel .work w x y
  let q := thresholdPixel s.threshold p
  (s.diffuse p q x y w h).writeBytes .work (pixelIndex w x y) (pixelBytes q)

/-- The pass over `WORK` once the image is in it: rows top to bottom, each left to right (R600, R601). -/
def State.ditherPass (s : State) (w h : Nat) : State :=
  forRange h (fun y a => forRange w (fun x b => b.ditherStep w h x y) a) s

/-- `dither(W, H)`: a fresh copy of the image, then the pass over it (R600). -/
def State.dither (s : State) (w h : Nat) : State := (s.copyImage (4 * w * h)).ditherPass w h

/-- `DITHER` (R607). -/
def execDither (s : State) : Host.Outcome State Fault Refusal :=
  s.runCommand .dither [(s.badDimension, .badDimension), (s.badLength s.inLen, .badLength)]
    ((s.dither s.imageW s.imageH).setWorkLen (BitVec.ofNat 32 s.imageBytes))

end Sys2Proof.Machine
end

