-- ==== Sys2Proof/Machine/Packer.lean ====
section
/-! DEFINITION. The bit packer and `PACK` (spec/45_bit_packer.md). -/
namespace Sys2Proof.Machine

/-- The packer inside a row (R133, R650): the state so far, the accumulator `acc`, its bit count `nb`, and `k`, the
bytes of the row already written. -/
structure PackRow where
  /-- The state with the bytes written so far. -/
  st  : State
  /-- The bits gathered since the last byte, the earliest the most significant. -/
  acc : Nat
  /-- How many bits `acc` holds. -/
  nb  : Nat
  /-- How many bytes of the row are written. -/
  k   : Nat
deriving DecidableEq, Repr

/-- Pixel `(x, y)` of the source shifted in; after eight, the byte is written (R650, R651, R652). -/
def packPixel (src : Buf) (w y x : Nat) (t : PackRow) : PackRow :=
  let acc := 2 * t.acc + if isDark t.st.threshold (t.st.readPixel src w x y) then 1 else 0
  if t.nb + 1 = 8 then
    { st := t.st.writeByte .output (y * bytesPerRow w + t.k) (BitVec.ofNat 8 acc), acc := 0, nb := 0, k := t.k + 1 }
  else { st := t.st, acc := acc, nb := t.nb + 1, k := t.k }

/-- The flush at a row's end: the remaining bits in the high positions, the low ones 0 (R650, R652). -/
def flushRow (w y : Nat) (t : PackRow) : State :=
  if 0 < t.nb then
    t.st.writeByte .output (y * bytesPerRow w + t.k) (BitVec.ofNat 8 (t.acc * 2 ^ (8 - t.nb)))
  else t.st

/-- One row of `pack` (R650). -/
def packRow (src : Buf) (w y : Nat) (s : State) : State :=
  flushRow w y (forRange w (packPixel src w y) { st := s, acc := 0, nb := 0, k := 0 })

/-- `pack(S, W, H)` (R650). -/
def State.packImage (s : State) (src : Buf) (w h : Nat) : State := forRange h (packRow src w) s

/-- The buffer `SRC` selects: 0 is `IN`, 1 is `WORK` (R308, R654). -/
def packSource (src : Nat) : Buf := if src = 0 then .input else .work

/-- The length register of the selected source (R654). -/
def State.packLength (s : State) (src : Nat) : Word := if src = 0 then s.inLen else s.workLen

/-- `PACK s` (R654). -/
def execPack (src : Nat) (s : State) : Host.Outcome State Fault Refusal :=
  s.runCommand (.pack src)
    [(decide (1 < src), .badOperand), (s.badDimension, .badDimension), (s.badLength (s.packLength src), .badLength)]
    ((s.packImage (packSource src) s.imageW s.imageH).setOutLen (BitVec.ofNat 32 s.packedBytes))

end Sys2Proof.Machine
end

