-- ==== Sys2Proof/Machine/Control.lean ====
section
/-! DEFINITION. `RASTER` and `NOP` (spec/46_raster_and_control.md, sections 1 and 2). -/
namespace Sys2Proof.Machine

/-- `NOP`: no effect (R702). -/
def execNop (s : State) : Host.Outcome State Fault Refusal := s.runCommand .nop [] s

/-- The effect of `RASTER` once its checks passed: the dither pass, then the packer over the buffer it left (R700,
R701). -/
def State.raster (s : State) : State :=
  let d := (s.dither s.imageW s.imageH).setWorkLen (BitVec.ofNat 32 s.imageBytes)
  (d.packImage .work s.imageW s.imageH).setOutLen (BitVec.ofNat 32 s.packedBytes)

/-- `RASTER` (R701). -/
def execRaster (s : State) : Host.Outcome State Fault Refusal :=
  s.runCommand .raster [(s.badDimension, .badDimension), (s.badLength s.inLen, .badLength)] s.raster

end Sys2Proof.Machine
end

