-- ==== Sys2Proof/Machine/KernelConfig.lean ====
section
/-! DEFINITION. `CONFIGURE` and `LOADPRESET` (spec/41_kernel_config.md). -/
namespace Sys2Proof.Machine

/-- `KR` as `CONFIGURE` reads it (R456). -/
def Staged.rows (g : Staged) : Nat := g.krows.toNat

/-- `KC` as `CONFIGURE` reads it (R456). -/
def Staged.cols (g : Staged) : Nat := g.kcols.toNat

/-- The check of R805: a staged count is 0 or above its maximum. -/
def badKernelShape (p : Params) (g : Staged) : Bool :=
  decide (g.rows < 1 ∨ p.kmaxRows < g.rows ∨ g.cols < 1 ∨ p.kmaxCols < g.cols)

/-- `c0`, the smallest column below `KC` whose row-0 weight is not 0, if there is one (R451). -/
def firstNonzeroCol (p : Params) (g : Staged) : Option Nat :=
  (List.range g.cols).find? fun c => cellAt p g.kw 0 c != 0

/-- The divisor coercion of R452: `d` if `d ≥ 1`, else 1. -/
def coerceDivisor (d : Word) : Word := if 1 ≤ d.toInt then d else 1

/-- The configuration `CONFIGURE` derives from the staging registers (R451 to R453, R456); `c0` as in R451. -/
def newConfiguration (p : Params) (g : Staged) (c0 : Nat) : Configuration :=
  { krows := g.krows
    kcols := g.kcols
    div := coerceDivisor g.div
    thr := BitVec.ofNat 32 (clampRatio p.roundTie g.thrNum.toInt g.thrDen.toNat)
    anchor := BitVec.ofInt 32 ((c0 : Int) - 1)
    kw := tabulateCells p fun r c => if r < g.rows ∧ c < g.cols then cellAt p g.kw r c else 0 }

/-- `CONFIGURE` (R456): checks in the order of R810, then the whole configuration at once (R130). -/
def execConfigure (s : State) : Host.Outcome State Fault Refusal :=
  s.runCommand .configure
    [ (badKernelShape s.params s.staged, .kernelShape),
      ((firstNonzeroCol s.params s.staged).isNone, .kernelRow0Zero),
      (s.staged.thrDen == 0, .badOperand) ]
    (s.setCfg (newConfiguration s.params s.staged ((firstNonzeroCol s.params s.staged).getD 0)))

/-- The rows of preset `p`, for the two that exist: 0 is `JARVIS_JUDICE_NINKE`, 1 is `ATKINSON` (R455, R458). -/
def presetWeights (p : Nat) : List (List Word) := if p = 0 then jjnWeights else atkinsonWeights

/-- The column count of preset `p` (R455, R458). -/
def presetCols (p : Nat) : Nat := if p = 0 then 5 else 4

/-- The staging registers after loading preset `n`: the two counts and the 3 × `KC` cells of the kernel; every other
cell, the divisor and the threshold keep their values (R458, R459). -/
def stagePreset (p : Params) (n : Nat) (g : Staged) : Staged :=
  { g with
    krows := 3
    kcols := BitVec.ofNat 32 (presetCols n)
    kw := tabulateCells p fun r c =>
      if r < 3 ∧ c < presetCols n then weightAt (presetWeights n) r c else cellAt p g.kw r c }

/-- `LOADPRESET p` (R458). -/
def execLoadpreset (preset : Nat) (s : State) : Host.Outcome State Fault Refusal :=
  s.runCommand (.loadpreset preset) [(decide (2 ≤ preset), .badOperand)]
    (s.setStaged (stagePreset s.params preset s.staged))

end Sys2Proof.Machine
end

