-- ==== Sys2Proof/Machine/Dispatch.lean ====
section
/-! DEFINITION. The dispatch of the ten commands to their meanings (R307). -/
namespace Sys2Proof.Machine

def exec (i : Instr) (s : State) : Host.Outcome State Fault Refusal :=
  match i with
  | .nop => Sys2Proof.Machine.execNop s
  | .configure => Sys2Proof.Machine.execConfigure s
  | .loadpreset preset => Sys2Proof.Machine.execLoadpreset preset s
  | .clamp => Sys2Proof.Machine.execClamp s
  | .thresh => Sys2Proof.Machine.execThresh s
  | .loadwork => Sys2Proof.Machine.execLoadwork s
  | .diffuse => Sys2Proof.Machine.execDiffuse s
  | .dither => Sys2Proof.Machine.execDither s
  | .pack src => Sys2Proof.Machine.execPack src s
  | .raster => Sys2Proof.Machine.execRaster s

end Sys2Proof.Machine
end

