-- ==== Sys2Proof/Machine/HostPort.lean ====
section
/-! DEFINITION. The host port: the register map (R102 to R129), the issue of a command (R703, R704) and the host's
actions (R705 to R708, R211, R212, R900). -/
namespace Sys2Proof.Machine

/-- The registers of the map (R102), the cells of the two kernel arrays by their offset. -/
inductive Reg where
  | cmd | status | width | height | inLen | workLen | outLen | posX | posY | pixOrig | pixQuant
  | clampNum | clampDen | clampOut
  | sKrows | sKcols | sDiv | sThrNum | sThrDen
  | cfgKrows | cfgKcols | cfgDiv | cfgThr | cfgAnchor
  | sKw (offset : Nat)
  | cfgKw (offset : Nat)
deriving DecidableEq, Repr

/-- Access kinds (R102). -/
inductive Access where
  | rw
  | ro
  | wo
deriving DecidableEq, Repr

/-- The indices below 0x100 that a register has (R103 to R127). -/
def namedRegs : List (Nat × Reg) :=
  [ (0x000, .cmd), (0x001, .status), (0x002, .width), (0x003, .height), (0x004, .inLen), (0x005, .workLen),
    (0x006, .outLen), (0x007, .posX), (0x008, .posY), (0x009, .pixOrig), (0x00A, .pixQuant), (0x00B, .clampNum),
    (0x00C, .clampDen), (0x00D, .clampOut) ] ++
  [ (0x010, .sKrows), (0x011, .sKcols), (0x012, .sDiv), (0x013, .sThrNum), (0x014, .sThrDen) ] ++
  [ (0x020, .cfgKrows), (0x021, .cfgKcols), (0x022, .cfgDiv), (0x023, .cfgThr), (0x024, .cfgAnchor) ]

/-- The register of an index; none for the unassigned indices of R129. -/
def regOfIndex (p : Params) (j : Nat) : Option Reg :=
  if j < 0x100 then namedRegs.lookup j
  else if 0x100 ≤ j ∧ j < 0x100 + p.kernelCells ∧ j < 0x200 then some (.sKw (j - 0x100))
  else if 0x200 ≤ j ∧ j < 0x200 + p.kernelCells ∧ j < 0x300 then some (.cfgKw (j - 0x200))
  else none

/-- The access kind of a register (R103 to R128). -/
def accessOf : Reg → Access
  | .cmd => .wo
  | .status => .ro
  | .width => .rw
  | .height => .rw
  | .inLen => .rw
  | .workLen => .ro
  | .outLen => .ro
  | .posX => .rw
  | .posY => .rw
  | .pixOrig => .rw
  | .pixQuant => .rw
  | .clampNum => .rw
  | .clampDen => .rw
  | .clampOut => .ro
  | .sKrows => .rw
  | .sKcols => .rw
  | .sDiv => .rw
  | .sThrNum => .rw
  | .sThrDen => .rw
  | .cfgKrows => .ro
  | .cfgKcols => .ro
  | .cfgDiv => .ro
  | .cfgThr => .ro
  | .cfgAnchor => .ro
  | .sKw _ => .rw
  | .cfgKw _ => .ro

/-- `x[NAME]` as the host reads it; `CMD` reads 0 (R103, R705). -/
def State.readReg (s : State) : Reg → Word
  | .cmd => 0
  | .status => s.status
  | .width => s.width
  | .height => s.height
  | .inLen => s.inLen
  | .workLen => s.workLen
  | .outLen => s.outLen
  | .posX => s.posX
  | .posY => s.posY
  | .pixOrig => s.pixOrig
  | .pixQuant => s.pixQuant
  | .clampNum => s.clampNum
  | .clampDen => s.clampDen
  | .clampOut => s.clampOut
  | .sKrows => s.staged.krows
  | .sKcols => s.staged.kcols
  | .sDiv => s.staged.div
  | .sThrNum => s.staged.thrNum
  | .sThrDen => s.staged.thrDen
  | .cfgKrows => s.cfg.krows
  | .cfgKcols => s.cfg.kcols
  | .cfgDiv => s.cfg.div
  | .cfgThr => s.cfg.thr
  | .cfgAnchor => s.cfg.anchor
  | .sKw k => s.staged.kw.getD k 0
  | .cfgKw k => s.cfg.kw.getD k 0

/-- `x[NAME] <- v` for a register the host may store to (R706); the port never comes here with another. -/
def State.writeReg (s : State) : Reg → Word → State
  | .width, v => { s with width := v }
  | .height, v => { s with height := v }
  | .inLen, v => { s with inLen := v }
  | .posX, v => { s with posX := v }
  | .posY, v => { s with posY := v }
  | .pixOrig, v => { s with pixOrig := v }
  | .pixQuant, v => s.setPixQuant v
  | .clampNum, v => { s with clampNum := v }
  | .clampDen, v => { s with clampDen := v }
  | .sKrows, v => s.setStaged { s.staged with krows := v }
  | .sKcols, v => s.setStaged { s.staged with kcols := v }
  | .sDiv, v => s.setStaged { s.staged with div := v }
  | .sThrNum, v => s.setStaged { s.staged with thrNum := v }
  | .sThrDen, v => s.setStaged { s.staged with thrDen := v }
  | .sKw k, v => s.setStaged { s.staged with kw := s.staged.kw.set k v }
  | .cmd, _ => s
  | .status, _ => s
  | .workLen, _ => s
  | .outLen, _ => s
  | .clampOut, _ => s
  | .cfgKrows, _ => s
  | .cfgKcols, _ => s
  | .cfgDiv, _ => s
  | .cfgThr, _ => s
  | .cfgAnchor, _ => s
  | .cfgKw _, _ => s

/-- A fault of a host access: cause `ILLEGAL_ACCESS`, `FAULT_OPC` = 0xFF (R808). -/
def State.raiseAccess (s : State) : State := s.raise .illegalAccess 0xFF

/-- Issues word `w` (R703): refused without effect while a fault is recorded (R704); otherwise decoded, an illegal word
raising `ILLEGAL_COMMAND` with its own opcode field (R802), and run to its end. DESIGN CHOICE: R704's refusal stands here
and not in `exec` (assumption log 5). -/
def issueCommand (w : Word) (s : State) : Host.Outcome State Fault Refusal :=
  if s.faulted then .next s
  else
    match decode w with
    | .error _ => .next (s.raise .illegalCommand (opcField w))
    | .ok i => exec i s

/-- Host register read `GET` (R705): a faulting read returns 0. -/
def hostGet (j : Nat) (s : State) : Host.Outcome State Fault Refusal :=
  match regOfIndex s.params j with
  | none => .next (s.raiseAccess.reply (.word 0))
  | some r => .next (s.reply (.word (s.readReg r)))

/-- A host write to a named register (R706): a command for `CMD`, a fault for a read-only register or for an `IN_LEN`
above `IN_CAP`, a store for the rest. -/
def hostStore (r : Reg) (v : Word) (s : State) : Host.Outcome State Fault Refusal :=
  match accessOf r with
  | .wo => issueCommand v s
  | .ro => .next s.raiseAccess
  | .rw =>
    if r = .inLen ∧ s.params.imageCap < v.toNat then .next s.raiseAccess
    else .next (s.writeReg r v)

/-- Host register write `SET` (R706). -/
def hostSet (j : Nat) (v : Word) (s : State) : Host.Outcome State Fault Refusal :=
  match regOfIndex s.params j with
  | none => .next s.raiseAccess
  | some r => hostStore r v s

/-- How many bytes of a buffer the host may read: all of `IN`, the valid bytes of `WORK` and `OUT` (R211). -/
def State.readableLen (s : State) : Buf → Nat
  | .input => s.params.imageCap
  | .work => s.workLen.toNat
  | .output => s.outLen.toNat

/-- Host buffer read `RDB` (R707, R211): at or beyond the capacity it faults and returns 0; between the valid length
and the capacity it is refused, having no defined value. -/
def hostRdb (b : Buf) (i : Nat) (s : State) : Host.Outcome State Fault Refusal :=
  if bufCap s.params b ≤ i then .next (s.raiseAccess.reply (.byte 0))
  else if i < s.readableLen b then .next (s.reply (.byte (s.readByte b i)))
  else .refused (.undefinedByte b i)

/-- Host buffer write `WRB` (R708, R212): only `IN`, below its capacity. -/
def hostWrb (b : Buf) (i : Nat) (v : Byte) (s : State) : Host.Outcome State Fault Refusal :=
  if b = .input ∧ i < s.params.imageCap then .next (s.writeByte .input i v) else .next s.raiseAccess

/-- Reset of the block (R900). -/
def hostReset (s : State) : Host.Outcome State Fault Refusal := .next s.resetBlock

/-- One action of the host, done to its end (R100, R703). -/
def hostAct (a : HostAction) (s : State) : Host.Outcome State Fault Refusal :=
  match a with
  | .get j => hostGet j s
  | .set j v => hostSet j v s
  | .rdb b i => hostRdb b i s
  | .wrb b i v => hostWrb b i v s
  | .reset => hostReset s

/-- The next action of the host, taken from the front of its list; with none left the block is idle and keeps all its
state (R823, R902). -/
def hostStep (s : State) : Host.Outcome State Fault Refusal :=
  match s.host with
  | [] => .next s
  | a :: rest => hostAct a (s.setHost rest)

/-- The word a table row's `nbits` bits make, the bits above them 0 (R306). -/
def tableWord (nbits w : Nat) : Word := BitVec.ofNat 32 (w % 2 ^ nbits)

/-- Puts the write of a command word to `CMD` in front of the host's actions (R103, R315). -/
def State.placeCommand (s : State) (w : Word) : State := s.setHost (.set 0x000 w :: s.host)

end Sys2Proof.Machine
end

