-- ==== Sys2Proof/Machine/Step.lean ====
section
/-! DEFINITION. One step of the machine: one action of the host, a command among them run to its end (R703, R711). -/
namespace Sys2Proof.Machine

/-- The step: the host's next action, or idleness (R100, R703, R711, R902). -/
def step (s : State) : Host.Outcome State Fault Refusal := hostStep s

/-- The state whose very next step issues the command of these bits: its write to `CMD` stands first among the host's
actions (R103, R217, assumption log 2). -/
def State.withFetchWord (s : State) (nbits w : Nat) : State := s.placeCommand (tableWord nbits w)

end Sys2Proof.Machine
end

