-- ==== Sys2Proof/Safety.lean ====
section
/-! DEFINITION. What counts as a good state and a safe run (R131, R711), and the words the statements use: the clamp over
the rationals (R400), an image ready for a command (R803, R804), the causes of each command (R801), bits of the packed
output (R205). -/
namespace Sys2Proof.Machine

/-! ## Good states -/

/-- The configuration invariants of R131, with the bound of R125 and the zero cells of R128. -/
structure State.ConfigInv (s : State) : Prop where
  /-- 1 ≤ `CFG_KROWS` ≤ `KMAX_ROWS`. -/
  rows : 1 ≤ s.cfg.krows.toNat ∧ s.cfg.krows.toNat ≤ s.params.kmaxRows
  /-- 1 ≤ `CFG_KCOLS` ≤ `KMAX_COLS`. -/
  cols : 1 ≤ s.cfg.kcols.toNat ∧ s.cfg.kcols.toNat ≤ s.params.kmaxCols
  /-- 1 ≤ `CFG_DIV` ≤ 2^31 - 1. -/
  div : 1 ≤ s.divisor ∧ s.divisor ≤ 2 ^ 31 - 1
  /-- 0 ≤ `CFG_THR` ≤ 255. -/
  thr : s.threshold ≤ 255
  /-- `CFG_ANCHOR` is one less than the first column below `CFG_KCOLS` whose row-0 weight is not 0. -/
  anchor : ∃ c0, c0 < s.cfg.kcols.toNat ∧ s.weight 0 c0 ≠ 0 ∧ (∀ c, c < c0 → s.weight 0 c = 0) ∧
    s.anchor = (c0 : Int) - 1
  /-- Every cell outside the configured shape is 0 (R128). -/
  outside : ∀ r c, r < s.params.kmaxRows → c < s.params.kmaxCols →
    ¬ (r < s.cfg.krows.toNat ∧ c < s.cfg.kcols.toNat) → cellAt s.params s.cfg.kw r c = 0

/-- The invariant of the machine: what every step keeps. -/
structure State.Inv (s : State) : Prop where
  /-- The parameters are legal (R8, R10). -/
  params : s.params.legal
  /-- `S_KW` has `KMAX_ROWS · KMAX_COLS` cells (R122, R136). -/
  stagedCells : s.staged.kw.length = s.params.kernelCells
  /-- `CFG_KW` has `KMAX_ROWS · KMAX_COLS` cells (R128, R136). -/
  cfgCells : s.cfg.kw.length = s.params.kernelCells
  /-- The configuration is a legal one (R131). -/
  config : s.ConfigInv
  /-- `STATUS` is 0 or a word fault entry wrote (R104, R809, R811). -/
  status : s.status = 0 ∨ ∃ c opc, s.status = faultStatus c opc
  /-- `IN_LEN` ≤ `IN_CAP` (R107). -/
  inLen : s.inLen.toNat ≤ s.params.imageCap
  /-- `WORK_LEN` ≤ `WORK_CAP` (R108, R105, R106). -/
  workLen : s.workLen.toNat ≤ s.params.imageCap
  /-- `OUT_LEN` ≤ `OUT_CAP` (R109, R105, R106). -/
  outLen : s.outLen.toNat ≤ s.params.outCap
  /-- `CLAMP_OUT` is a byte: bits 31:8 read 0 (R116). -/
  clampOut : s.clampOut.toNat ≤ 255
  /-- Every buffer's bytes are in canonical form. -/
  wf : ∀ b, (s.buf b).wf
  /-- No byte is listed at or beyond a buffer's capacity (R200). -/
  bound : ∀ b i, ((s.buf b).lookup i).isSome → i < bufCap s.params b
  /-- Every valid byte of `WORK` has been written (R108, R211). -/
  workValid : ∀ i, i < s.workLen.toNat → (s.workBuf.lookup i).isSome
  /-- Every valid byte of `OUT` has been written (R109, R211). -/
  outValid : ∀ i, i < s.outLen.toNat → (s.outBuf.lookup i).isSome

/-! ## Safe runs -/

/-- No fault has been recorded: what a claim about a run takes as a premise at its end (R711). -/
abbrev State.clean (s : State) : Prop := s.faulted = false

/-! ## The words of the statements -/

/-- `clamp(v)` and `round_tie(v)` exactly as R400 writes them, over the rationals. -/
def clampQ (t : RoundTie) (v : ℚ) : ℤ :=
  if 255 < v then 255
  else if v < 0 then 0
  else if v - ⌊v⌋ < 1 / 2 then ⌊v⌋
  else if 1 / 2 < v - ⌊v⌋ then ⌊v⌋ + 1
  else
    match t with
    | .halfAway => ⌊v⌋ + 1
    | .halfEven => if ⌊v⌋ % 2 = 0 then ⌊v⌋ else ⌊v⌋ + 1

/-- The dimensions are legal (R803). -/
abbrev State.sizeLegal (s : State) : Prop :=
  1 ≤ s.imageW ∧ s.imageW ≤ s.params.maxWidth ∧ 1 ≤ s.imageH ∧ s.imageH ≤ s.params.maxHeight

/-- An image command's two checks pass for the image whose length register is `len` (R803, R804). -/
abbrev State.imageReady (s : State) (len : Word) : Prop :=
  s.sizeLegal ∧ len.toNat = 4 * s.imageW * s.imageH

/-- Every byte of one buffer reads the same in the two states. -/
abbrev SameBytes (b : Buf) (s t : State) : Prop := ∀ i, t.readByte b i = s.readByte b i

/-- Channel `k` of a pixel in the order R, G, B. -/
def channelOf (p : Pixel) (k : Nat) : Byte := if k = 0 then p.R else if k = 1 then p.G else p.B

/-- The pixel is `[0,0,0,A]` (R300). -/
abbrev Pixel.isBlack (p : Pixel) : Prop := p.R = 0 ∧ p.G = 0 ∧ p.B = 0

/-- The pixel is `[255,255,255,A]` (R300). -/
abbrev Pixel.isWhite (p : Pixel) : Prop := p.R = 255 ∧ p.G = 255 ∧ p.B = 255

/-- The bit of `OUT` that stands for column `x` of row `y` in an image of width `w`: bit `7 - x mod 8` of byte
`y · BPR + x div 8` (R205). -/
def State.outBit (s : State) (w x y : Nat) : Bool :=
  (s.readByte .output (y * bytesPerRow w + x / 8)).getLsbD (7 - x % 8)

/-- The causes the table of R801 lists for a command; `ILLEGAL_COMMAND` is raised before there is one. -/
def causesOf : Instr → List Cause
  | .nop => []
  | .configure => [.kernelShape, .kernelRow0Zero, .badOperand]
  | .loadpreset _ => [.badOperand]
  | .clamp => [.badOperand]
  | .thresh => []
  | .loadwork => [.badDimension, .badLength]
  | .diffuse => [.badDimension, .badLength, .badOperand]
  | .dither => [.badDimension, .badLength]
  | .pack _ => [.badOperand, .badDimension, .badLength]
  | .raster => [.badDimension, .badLength]

/-- The word is `CONFIGURE`'s (R307). -/
abbrev configureWord : Word := 0x01000000

/-- The Jarvis-Judice-Ninke weights, as R455 prints them. -/
abbrev jjnMatrix : List (List Word) := [[0, 0, 0, 7, 5], [3, 5, 7, 5, 3], [1, 3, 5, 3, 1]]

/-- The Atkinson weights, as R455 prints them. -/
abbrev atkinsonMatrix : List (List Word) := [[0, 0, 1, 1], [1, 1, 1, 0], [0, 1, 0, 0]]

end Sys2Proof.Machine
end

