-- ==== Sys2Proof/Certificates/Slice0/Obligations.lean ====
section
/-! DEFINITION. The statements for the provers, one definition each; OBLIGATIONS.json lists them with the rules of spec/
they come from. -/

open Sys2Proof Sys2Proof.Machine

/-! ## Encoding -/

/-- R306 to R308, R311: decoding the word of a well-formed command gives the command back, for every operand. -/
def Obligations.DecodeEncodeRoundTrip : Prop :=
  ∀ i : Instr, i.wellFormed = true → decode (encode i) = .ok i

/-- R311: every word the decoder accepts is the one word of its command, and the command is well formed; so no bit of
a legal word is ignored. -/
def Obligations.LegalWordReencodes : Prop :=
  ∀ (w : Word) (i : Instr), decode w = .ok i → i.wellFormed = true ∧ encode i = w

/-- R309, R310, R308, R311: a word is refused exactly when its opcode is 0x0A or above, its reserved bits are not all
zero, or its `ARG` is not zero and the opcode is neither 0x02 nor 0x08. -/
def Obligations.DecodeRefusesExactlyTheIllegalWords : Prop :=
  ∀ w : Word, (∃ e, decode w = .error e) ↔
    0x09 < (w.extractLsb' 24 8).toNat ∨ w.extractLsb' 8 16 ≠ 0 ∨
      ((w.extractLsb' 24 8).toNat ≠ 0x02 ∧ (w.extractLsb' 24 8).toNat ≠ 0x08 ∧ w.extractLsb' 0 8 ≠ 0)

/-- R307, R314: the words of the opcode table. -/
def Obligations.TableWordsDecode : Prop :=
  decode 0x00000000 = .ok .nop ∧ decode 0x01000000 = .ok .configure ∧ decode 0x02000000 = .ok (.loadpreset 0) ∧
    decode 0x02000001 = .ok (.loadpreset 1) ∧ decode 0x020000FF = .ok (.loadpreset 255) ∧
    decode 0x03000000 = .ok .clamp ∧ decode 0x04000000 = .ok .thresh ∧ decode 0x05000000 = .ok .loadwork ∧
    decode 0x06000000 = .ok .diffuse ∧ decode 0x07000000 = .ok .dither ∧ decode 0x08000000 = .ok (.pack 0) ∧
    decode 0x08000001 = .ok (.pack 1) ∧ decode 0x09000000 = .ok .raster

/-! ## Issue, faults -/

/-- R703, R103: a step whose host action writes a legal word to `CMD`, with no fault recorded, is the command's own
execution; and the very next step after `withFetchWord` is that of the command its bits decode to. -/
def Obligations.StepRunsTheDecodedCommand : Prop :=
  (∀ (s : State) (w : Word) (i : Instr) (rest : List HostAction),
    s.host = .set 0 w :: rest → s.clean → decode w = .ok i → step s = exec i (s.setHost rest)) ∧
  (∀ (s : State) (w : Word) (i : Instr),
    s.clean → decode w = .ok i → step (s.withFetchWord 32 w.toNat) = exec i s)

/-- R802: a step whose host action writes a word with an opcode of 0x0A or above, with reserved bits that are not all
zero, or with an `ARG` that is not zero for an opcode other than `LOADPRESET`'s and `PACK`'s, with no fault recorded,
records cause 1 and the word's opcode field, and changes nothing else. -/
def Obligations.IllegalWordRecordsIllegalCommand : Prop :=
  ∀ (s : State) (w : Word) (rest : List HostAction), s.host = .set 0 w :: rest → s.clean →
    (0x0A ≤ (w.extractLsb' 24 8).toNat ∨ w.extractLsb' 8 16 ≠ 0 ∨
      ((w.extractLsb' 24 8).toNat ≠ 0x02 ∧ (w.extractLsb' 24 8).toNat ≠ 0x08 ∧ w.extractLsb' 0 8 ≠ 0)) →
    ∃ t, step s = .next t ∧ t.faulted = true ∧ statusCause t.status = 1 ∧
      statusFaultOpc t.status = w.extractLsb' 24 8 ∧ t = { s with host := rest, status := t.status }

/-- R704: while a fault is recorded every word written to `CMD` is refused without effect. -/
def Obligations.FaultedBlockRefusesEveryCommand : Prop :=
  ∀ (s : State) (w : Word) (rest : List HostAction),
    s.host = .set 0 w :: rest → s.faulted = true → step s = .next { s with host := rest }

/-- R823, R902: with no host action to come the block is idle and keeps all its state. -/
def Obligations.IdleBlockKeepsItsState : Prop := ∀ s : State, s.host = [] → step s = .next s

/-- R811, R104, R801: fault entry with no fault recorded sets `FAULT`, `CAUSE` and `FAULT_OPC`, leaves the reserved bits 0
and changes nothing else: `STATUS` becomes the number with 1 in bit 0, the cause's code in bits 15:8 and the opcode in bits
23:16. With a fault recorded it changes nothing; and after it every command is refused. -/
def Obligations.FaultEntryRecordsTheFirstFault : Prop :=
  ∀ (s : State) (c : Cause) (opc : BitVec 8),
    (s.clean →
      (s.raise c opc).faulted = true ∧ statusCause (s.raise c opc).status = causeCode c ∧
        statusFaultOpc (s.raise c opc).status = opc ∧ (s.raise c opc).status.extractLsb' 1 7 = 0 ∧
        (s.raise c opc).status.extractLsb' 24 8 = 0 ∧
        (s.raise c opc).status.toNat = 1 + 256 * (match c with
          | .illegalCommand => 1
          | .badDimension => 2
          | .badLength => 3
          | .kernelShape => 4
          | .kernelRow0Zero => 5
          | .badOperand => 6
          | .illegalAccess => 7) + 65536 * opc.toNat ∧
        s.raise c opc = { s with status := (s.raise c opc).status }) ∧
    (s.faulted = true → s.raise c opc = s) ∧
    (∀ w : Word, issueCommand w (s.raise c opc) = .next (s.raise c opc))

/-- R815: every command answers a next state: none is stuck, hangs or is left without a meaning. -/
def Obligations.EveryCommandCompletes : Prop := ∀ (i : Instr) (s : State), ∃ t, exec i s = .next t

/-- R801, R812: a command either leaves `STATUS` as it was, or raised one of the causes listed for it with its own
opcode and changed nothing else. -/
def Obligations.FaultingCommandChangesOnlyStatus : Prop :=
  ∀ (i : Instr) (s t : State), exec i s = .next t →
    t.status = s.status ∨
      (s.clean ∧ ∃ c, c ∈ causesOf i ∧ t = { s with status := faultStatus c (opcodeOf i) })

/-- R814: while a fault is recorded a step that is no reset keeps `STATUS` as it is; a reset clears all of it; and a host
write to `STATUS`, index 0x001, is itself an `ILLEGAL_ACCESS`. -/
def Obligations.OnlyResetClearsAFault : Prop :=
  (∀ s t : State, s.faulted = true → step s = .next t → t.status = s.status ∨ ∃ rest, s.host = .reset :: rest) ∧
  (∀ (s t : State) (rest : List HostAction), s.host = .reset :: rest → step s = .next t →
    t.faulted = false ∧ statusCause t.status = 0 ∧ statusFaultOpc t.status = 0) ∧
  (∀ (s : State) (v : Word) (rest : List HostAction), s.host = .set 1 v :: rest →
    step s = .next (({ s with host := rest } : State).raise .illegalAccess 0xFF))

/-! ## Invariants -/

/-- The state after reset meets the invariant, for every legal choice of the parameters (R900, R904), the parameters of
`State.reset` (assumption log 1) among them. -/
def Obligations.ResetMeetsTheInvariant : Prop :=
  (∀ p : Params, p.legal → (State.resetWith p).Inv) ∧ State.reset.Inv

/-- Every step keeps the invariant: the buffers stay canonical and in bounds, the configuration stays a legal one
(R131), `STATUS` stays 0 or a fault's word (R809), the lengths stay in range. -/
def Obligations.StepKeepsTheInvariant : Prop :=
  ∀ s t : State, s.Inv → step s = .next t → t.Inv

/-- R131 alone: every command and every host action keeps the configuration invariants. -/
def Obligations.StepKeepsTheConfigurationLegal : Prop :=
  ∀ s t : State, s.params.legal → s.ConfigInv → step s = .next t → t.ConfigInv

/-- R130: a step that changes the configuration writes `CONFIGURE`'s word to `CMD`, or is a reset. -/
def Obligations.OnlyConfigureAndResetChangeTheConfiguration : Prop :=
  ∀ s t : State, step s = .next t → t.cfg ≠ s.cfg →
    ∃ rest, s.host = .set 0 configureWord :: rest ∨ s.host = .reset :: rest

/-- R136: no step changes the parameters. -/
def Obligations.NoStepChangesTheParameters : Prop := ∀ s t : State, step s = .next t → t.params = s.params

/-- The last column of R312's table, as a frame: what no command writes, and what only the named ones write. -/
def Obligations.CommandsWriteOnlyTheirResults : Prop :=
  ∀ (i : Instr) (s t : State), exec i s = .next t →
    (t.params = s.params ∧ t.width = s.width ∧ t.height = s.height ∧ t.inLen = s.inLen ∧ t.posX = s.posX ∧
      t.posY = s.posY ∧ t.pixOrig = s.pixOrig ∧ t.clampNum = s.clampNum ∧ t.clampDen = s.clampDen ∧
      t.staged.div = s.staged.div ∧ t.staged.thrNum = s.staged.thrNum ∧ t.staged.thrDen = s.staged.thrDen ∧
      t.inBuf = s.inBuf ∧ t.epoch = s.epoch ∧ t.host = s.host ∧ t.replies = s.replies) ∧
    (i ≠ .configure → t.cfg = s.cfg) ∧
    ((∀ p, i ≠ .loadpreset p) → t.staged = s.staged) ∧
    (i ≠ .clamp → t.clampOut = s.clampOut) ∧
    (i ≠ .thresh → t.pixQuant = s.pixQuant) ∧
    (i ≠ .loadwork → i ≠ .diffuse → i ≠ .dither → i ≠ .raster → t.workBuf = s.workBuf ∧ SameBytes .work s t) ∧
    (i ≠ .loadwork → i ≠ .dither → i ≠ .raster → t.workLen = s.workLen) ∧
    ((∀ src, i ≠ .pack src) → i ≠ .raster → t.outBuf = s.outBuf ∧ SameBytes .output s t ∧ t.outLen = s.outLen) ∧
    SameBytes .input s t

/-- R906: what is staged reaches only `CONFIGURE` (and `LOADPRESET`, which overwrites it): every other command does the
same whatever the staging registers hold, and leaves them as they are. -/
def Obligations.StagingReachesOnlyConfigure : Prop :=
  ∀ (i : Instr) (s t : State) (g : Staged), i ≠ .configure → (∀ p, i ≠ .loadpreset p) → exec i s = .next t →
    exec i { s with staged := g } = .next { t with staged := g }

/-! ## `NOP` and the clamp -/

/-- R702: `NOP` has no effect. -/
def Obligations.NopHasNoEffect : Prop := ∀ s : State, exec .nop s = .next s

/-- R400: the integer clamp of the model is the clamp of R400 over the rationals, under either tie rule. -/
def Obligations.ClampIsTheRationalClamp : Prop :=
  ∀ (t : RoundTie) (num : Int) (den : Nat), 0 < den →
    (clampRatio t num den : ℤ) = clampQ t ((num : ℚ) / (den : ℚ))

/-- R401: the clamp gives every integer of [0, 255] back, stays in [0, 255] and is monotone, under either tie rule; it
is 255 from 254.5 on under `HALF_AWAY` and above 254.5 under `HALF_EVEN`, 0 below 0.5, and at 0.5 it follows the tie
rule. The last clause is the model's integer clamp. -/
def Obligations.ClampIsMonotoneOntoBytes : Prop :=
  (∀ t : RoundTie,
    (∀ n : Nat, n ≤ 255 → clampQ t (n : ℚ) = n) ∧ (∀ v : ℚ, 0 ≤ clampQ t v ∧ clampQ t v ≤ 255) ∧
    (∀ v v' : ℚ, v ≤ v' → clampQ t v ≤ clampQ t v') ∧ (∀ v : ℚ, v < 1 / 2 → clampQ t v = 0) ∧
    (∀ num num' : Int, ∀ den : Nat, 0 < den → num ≤ num' → clampRatio t num den ≤ clampRatio t num' den)) ∧
  (∀ v : ℚ, 509 / 2 ≤ v → clampQ .halfAway v = 255) ∧ (∀ v : ℚ, 509 / 2 < v → clampQ .halfEven v = 255) ∧
  clampQ .halfEven (509 / 2) = 254 ∧ clampQ .halfAway (1 / 2) = 1 ∧ clampQ .halfEven (1 / 2) = 0

/-- R402: the two tie rules differ exactly on `n + 1/2` with `n` an even integer in [0, 254], where `HALF_AWAY` gives
`n + 1` and `HALF_EVEN` gives `n`; on `n + 1/2` with `n` odd both give `n + 1`. -/
def Obligations.TieRulesDifferOnlyOnEvenHalves : Prop :=
  ∀ (num : Int) (den : Nat), 0 < den →
    ((clampRatio .halfAway num den ≠ clampRatio .halfEven num den) ↔
      ∃ n : Nat, n ≤ 254 ∧ n % 2 = 0 ∧ 2 * num = (2 * n + 1) * (den : Int)) ∧
    (∀ n : Nat, n ≤ 254 → 2 * num = (2 * n + 1) * (den : Int) →
      clampRatio .halfAway num den = n + 1 ∧ clampRatio .halfEven num den = if n % 2 = 0 then n else n + 1)

/-- R403: `CLAMP` with a denominator that is not 0 writes `CLAMP_OUT` with the clamp of the exact quotient, and nothing
else. -/
def Obligations.ClampCommandWritesTheClamp : Prop :=
  ∀ s : State, s.clampDen.toNat ≠ 0 →
    ∃ t, exec .clamp s = .next t ∧
      (t.clampOut.toNat : ℤ) = clampQ s.params.roundTie ((s.clampNum.toInt : ℚ) / (s.clampDen.toNat : ℚ)) ∧
      t = { s with clampOut := t.clampOut } ∧ ∀ b, SameBytes b s t

/-- R403, R807: `CLAMP` with denominator 0 raises `BAD_OPERAND` and leaves `CLAMP_OUT` and everything else alone. -/
def Obligations.ClampByZeroRaisesBadOperand : Prop :=
  ∀ s : State, s.clampDen = 0 → exec .clamp s = .next (s.raise .badOperand 0x03)

/-! ## Configuration -/

/-- R451, R452, R453, R456: `CONFIGURE` with its checks passed writes the whole configuration it derives, and nothing
else. -/
def Obligations.ConfigureWritesTheDerivedConfiguration : Prop :=
  ∀ s : State, s.params.legal → 1 ≤ s.staged.krows.toNat → s.staged.krows.toNat ≤ s.params.kmaxRows →
    1 ≤ s.staged.kcols.toNat → s.staged.kcols.toNat ≤ s.params.kmaxCols →
    (∃ c, c < s.staged.kcols.toNat ∧ cellAt s.params s.staged.kw 0 c ≠ 0) → s.staged.thrDen.toNat ≠ 0 →
    ∃ t, exec .configure s = .next t ∧ t.cfg.krows = s.staged.krows ∧ t.cfg.kcols = s.staged.kcols ∧
      (∀ r c, r < s.params.kmaxRows → c < s.params.kmaxCols →
        cellAt s.params t.cfg.kw r c =
          if r < s.staged.krows.toNat ∧ c < s.staged.kcols.toNat then cellAt s.params s.staged.kw r c else 0) ∧
      (t.divisor : ℤ) = (if 1 ≤ s.staged.div.toInt then s.staged.div.toInt else 1) ∧
      (t.threshold : ℤ) =
        clampQ s.params.roundTie ((s.staged.thrNum.toInt : ℚ) / (s.staged.thrDen.toNat : ℚ)) ∧
      (∃ c0, c0 < s.staged.kcols.toNat ∧ cellAt s.params s.staged.kw 0 c0 ≠ 0 ∧
        (∀ c, c < c0 → cellAt s.params s.staged.kw 0 c = 0) ∧ t.anchor = (c0 : Int) - 1) ∧
      t = { s with cfg := t.cfg } ∧ ∀ b, SameBytes b s t

/-- R805, R806, R807, R810: `CONFIGURE`'s three faults, each raised exactly where the checks before it pass. -/
def Obligations.ConfigureFaultsInOrder : Prop :=
  ∀ s : State,
    let shapeOk := 1 ≤ s.staged.krows.toNat ∧ s.staged.krows.toNat ≤ s.params.kmaxRows ∧
      1 ≤ s.staged.kcols.toNat ∧ s.staged.kcols.toNat ≤ s.params.kmaxCols
    let row0Zero := ∀ c, c < s.staged.kcols.toNat → cellAt s.params s.staged.kw 0 c = 0
    (¬ shapeOk → exec .configure s = .next (s.raise .kernelShape 0x01)) ∧
    (shapeOk → row0Zero → exec .configure s = .next (s.raise .kernelRow0Zero 0x01)) ∧
    (shapeOk → ¬ row0Zero → s.staged.thrDen = 0 → exec .configure s = .next (s.raise .badOperand 0x01))

/-- R901, R454: the configuration at reset is the default one, and `CONFIGURE` right after reset leaves every register as
it is, whatever the legal parameters. -/
def Obligations.ConfigureAfterResetChangesNothing : Prop :=
  ∀ p : Params, p.legal →
    (State.resetWith p).cfg.krows = 3 ∧ (State.resetWith p).cfg.kcols = 5 ∧ (State.resetWith p).divisor = 48 ∧
      (State.resetWith p).threshold = 128 ∧ (State.resetWith p).anchor = 2 ∧
      (∀ r c, r < 3 → c < 5 → cellAt p (State.resetWith p).cfg.kw r c = weightAt jjnMatrix r c) ∧
      exec .configure (State.resetWith p) = .next (State.resetWith p)

/-- R455, R458, R459: `LOADPRESET 0` and `LOADPRESET 1` stage the two kernels, cell by cell, and write nothing else:
no divisor, no threshold, no configuration register, no other cell. -/
def Obligations.LoadpresetStagesTheKernel : Prop :=
  ∀ (s : State) (p : Nat), s.params.legal → p < 2 →
    ∃ t, exec (.loadpreset p) s = .next t ∧ t.staged.krows = 3 ∧ t.staged.kcols = (if p = 0 then 5 else 4) ∧
      (∀ r c, r < 3 → c < (if p = 0 then 5 else 4) →
        cellAt s.params t.staged.kw r c = weightAt (if p = 0 then jjnMatrix else atkinsonMatrix) r c) ∧
      (∀ r c, r < s.params.kmaxRows → c < s.params.kmaxCols → ¬ (r < 3 ∧ c < (if p = 0 then 5 else 4)) →
        cellAt s.params t.staged.kw r c = cellAt s.params s.staged.kw r c) ∧
      t = { s with staged :=
        { s.staged with krows := t.staged.krows, kcols := t.staged.kcols, kw := t.staged.kw } } ∧
      ∀ b, SameBytes b s t

/-- R458, R807: `LOADPRESET p` with `p` ≥ 2 raises `BAD_OPERAND`. -/
def Obligations.LoadpresetOfNoPresetRaisesBadOperand : Prop :=
  ∀ (s : State) (p : Nat), 2 ≤ p → exec (.loadpreset p) s = .next (s.raise .badOperand 0x02)

/-- R460: for a legal configuration every nonzero cell of the kernel lies in a row below 0, or in row 0 with `c - anchor`
at least 1; so its target is strictly after the current pixel in raster order, whatever the boundary rule drops. -/
def Obligations.NonzeroCellsAimForward : Prop :=
  ∀ s : State, s.ConfigInv → ∀ x y r c : Nat, r < s.cfg.krows.toNat → c < s.cfg.kcols.toNat → s.weight r c ≠ 0 →
    (1 ≤ r ∨ (r = 0 ∧ 1 ≤ (c : Int) - s.anchor)) ∧
    ((y : Int) < targetRow y r ∨ (targetRow y r = y ∧ (x : Int) < s.targetCol x c))

/-! ## Luminance and thresholding -/

/-- R500, R501: `lum1000` is the integer `299·R + 587·G + 114·B`, at most 255000, exactly `v` thousands for a grey pixel
and blind to alpha; and the dark predicate is the strict exact comparison of `0.299·R + 0.587·G + 0.114·B` with the
threshold. -/
def Obligations.DarkIsTheExactComparison : Prop :=
  ∀ (thr : Nat) (p : Pixel),
    lum1000 p = 299 * p.R.toNat + 587 * p.G.toNat + 114 * p.B.toNat ∧ lum1000 p ≤ 255000 ∧
    (p.G = p.R → p.B = p.R → lum1000 p = 1000 * p.R.toNat) ∧ (∀ a : Byte, lum1000 { p with A := a } = lum1000 p) ∧
    (isDark thr p = true ↔
      (299 / 1000 : ℚ) * (p.R.toNat : ℚ) + (587 / 1000 : ℚ) * (p.G.toNat : ℚ) + (114 / 1000 : ℚ) * (p.B.toNat : ℚ)
        < (thr : ℚ)) ∧
    (isDark thr p = true ↔ lum1000 p < 1000 * thr)

/-- R502, R503, R504: `THRESH` writes `PIX_QUANT` with black or white, decided once from the luminance of `PIX_ORIG`,
its alpha passed through, and writes nothing else. -/
def Obligations.ThreshWritesTheQuantizedPixel : Prop :=
  ∀ s : State,
    ∃ t, exec .thresh s = .next t ∧
      t.pixQuant.extractLsb' 24 8 = s.pixOrig.extractLsb' 24 8 ∧
      (∀ k, k < 3 → t.pixQuant.extractLsb' (8 * k) 8 =
        if 299 * (s.pixOrig.extractLsb' 0 8).toNat + 587 * (s.pixOrig.extractLsb' 8 8).toNat +
            114 * (s.pixOrig.extractLsb' 16 8).toNat < 1000 * s.cfg.thr.toNat
        then 0 else 255) ∧
      t = { s with pixQuant := t.pixQuant } ∧ ∀ b, SameBytes b s t

/-! ## Copying and diffusing -/

/-- R557: `LOADWORK` with its checks passed copies the image bytes of `IN` to the same indices of `WORK`, sets
`WORK_LEN`, leaves `WORK` at and beyond the image stale, and writes nothing else. -/
def Obligations.LoadworkCopiesTheImage : Prop :=
  ∀ s : State, s.imageReady s.inLen →
    ∃ t, exec .loadwork s = .next t ∧ t.workLen = s.inLen ∧
      (∀ j, j < 4 * s.imageW * s.imageH → t.readByte .work j = s.readByte .input j) ∧
      (∀ j, 4 * s.imageW * s.imageH ≤ j → t.readByte .work j = s.readByte .work j) ∧
      t = { s with workBuf := t.workBuf, workLen := t.workLen } ∧ SameBytes .input s t ∧ SameBytes .output s t

/-- R803, R804, R810: `LOADWORK`, `DITHER` and `RASTER` raise `BAD_DIMENSION` for an illegal size, else `BAD_LENGTH` for an
`IN_LEN` that is not the image's, each with its own opcode. -/
def Obligations.ImageCommandsCheckSizeThenLength : Prop :=
  ∀ (s : State) (i : Instr), i = .loadwork ∨ i = .dither ∨ i = .raster →
    (¬ s.sizeLegal → exec i s = .next (s.raise .badDimension (opcodeOf i))) ∧
    (s.sizeLegal → s.inLen.toNat ≠ 4 * s.imageW * s.imageH →
      exec i s = .next (s.raise .badLength (opcodeOf i)))

/-- R803, R804, R807, R810: `DIFFUSE`'s three faults, each raised exactly where the checks before it pass. -/
def Obligations.DiffuseFaultsInOrder : Prop :=
  ∀ s : State,
    (¬ s.sizeLegal → exec .diffuse s = .next (s.raise .badDimension 0x06)) ∧
    (s.sizeLegal → s.workLen.toNat ≠ 4 * s.imageW * s.imageH →
      exec .diffuse s = .next (s.raise .badLength 0x06)) ∧
    (s.imageReady s.workLen → s.imageW ≤ s.posX.toNat ∨ s.imageH ≤ s.posY.toNat →
      exec .diffuse s = .next (s.raise .badOperand 0x06))

/-- R550 to R555, R558: `DIFFUSE` with its checks passed, in closed form. The channel byte of a pixel that is neither in
row 0 nor in column 0 and that a kernel cell aims at becomes the clamp of its old value plus error times weight over
divisor, one addition exactly; every other byte of `WORK` (other pixels, every alpha, the bytes beyond the image) is
as before, and nothing else is written. -/
def Obligations.DiffuseUpdatesEachTargetOnce : Prop :=
  ∀ s : State, s.imageReady s.workLen → s.posX.toNat < s.imageW → s.posY.toNat < s.imageH → 1 ≤ s.divisor →
    ∃ t, exec .diffuse s = .next t ∧ t = { s with workBuf := t.workBuf } ∧
      (∀ tx ty k, tx < s.imageW → ty < s.imageH → k < 3 →
        let col : Int := (tx : Int) - (s.posX.toNat : Int) + s.anchor
        let old := s.readByte .work (pixelIndex s.imageW tx ty + k)
        let err : Int := ((channelOf (pixelOfWord s.pixOrig) k).toNat : Int) -
          ((channelOf (pixelOfWord s.pixQuant) k).toNat : Int)
        ((t.readByte .work (pixelIndex s.imageW tx ty + k)).toNat : ℤ) =
          if 1 ≤ tx ∧ 1 ≤ ty ∧ s.posY.toNat ≤ ty ∧ ty - s.posY.toNat < s.cfg.krows.toNat ∧
              0 ≤ col ∧ col < (s.cfg.kcols.toNat : Int) then
            clampQ s.params.roundTie ((old.toNat : ℚ) +
              (err : ℚ) * (s.weight (ty - s.posY.toNat) col.toNat : ℚ) / (s.divisor : ℚ))
          else (old.toNat : ℤ)) ∧
      (∀ tx ty, tx < s.imageW → ty < s.imageH →
        t.readByte .work (pixelIndex s.imageW tx ty + 3) = s.readByte .work (pixelIndex s.imageW tx ty + 3)) ∧
      (∀ j, 4 * s.imageW * s.imageH ≤ j → t.readByte .work j = s.readByte .work j) ∧
      SameBytes .input s t ∧ SameBytes .output s t

/-- R556: whatever the configuration, the procedure `diffuse`, and so the command `DIFFUSE`, changes no byte of row 0 or
of column 0; so in an image of width 1 or height 1 it changes no byte. -/
def Obligations.DiffuseSparesTopRowAndLeftColumn : Prop :=
  (∀ (s : State) (o q : Pixel) (x y w h tx ty k : Nat), tx < w → ty < h → k < 4 →
    tx = 0 ∨ ty = 0 ∨ w = 1 ∨ h = 1 →
    (s.diffuse o q x y w h).readByte .work (pixelIndex w tx ty + k) = s.readByte .work (pixelIndex w tx ty + k)) ∧
  (∀ s t : State, exec .diffuse s = .next t →
    ∀ tx ty k, tx < s.imageW → ty < s.imageH → k < 4 → tx = 0 ∨ ty = 0 ∨ s.imageW = 1 ∨ s.imageH = 1 →
      t.readByte .work (pixelIndex s.imageW tx ty + k) = s.readByte .work (pixelIndex s.imageW tx ty + k))

/-- R460, R555, R558: with a legal configuration `DIFFUSE` changes neither the pixel at its position nor any pixel before
it in raster order. -/
def Obligations.DiffuseSparesVisitedPixels : Prop :=
  ∀ s t : State, s.ConfigInv → exec .diffuse s = .next t →
    ∀ tx ty k, tx < s.imageW → ty < s.imageH → k < 4 →
      ty < s.posY.toNat ∨ (ty = s.posY.toNat ∧ tx ≤ s.posX.toNat) →
      t.readByte .work (pixelIndex s.imageW tx ty + k) = s.readByte .work (pixelIndex s.imageW tx ty + k)

/-! ## The dither pass -/

/-- R600, R601: `DITHER` with its checks passed is the walk of one cursor: from the fresh copy, exactly `W · H` steps, the
`k`-th at column `k mod W` of row `k div W`. -/
def Obligations.DitherWalksTheRaster : Prop :=
  ∀ s : State, s.imageReady s.inLen →
    ∃ st : Nat → State, st 0 = s.copyImage (4 * s.imageW * s.imageH) ∧
      (∀ k, k < s.imageW * s.imageH →
        st (k + 1) = (st k).ditherStep s.imageW s.imageH (k % s.imageW) (k / s.imageW)) ∧
      exec .dither s = .next ((st (s.imageW * s.imageH)).setWorkLen s.inLen)

/-- R602: the step at a pixel stores its thresholded value there and leaves every other byte as the diffusion of its error
left it; and the result is the same if the value is stored before the diffusion. -/
def Obligations.DitherStepStoresAfterOrBefore : Prop :=
  ∀ (s : State) (w h x y : Nat), s.ConfigInv → x < w → y < h →
    let p := s.readPixel .work w x y
    let q := thresholdPixel s.threshold p
    (s.ditherStep w h x y).readPixel .work w x y = q ∧
    (∀ j, j < pixelIndex w x y ∨ pixelIndex w x y + 4 ≤ j →
      (s.ditherStep w h x y).readByte .work j = (s.diffuse p q x y w h).readByte .work j) ∧
    SameBytes .work (s.ditherStep w h x y)
      ((s.writeBytes .work (pixelIndex w x y) (pixelBytes q)).diffuse p q x y w h)

/-- R605, R607: `DITHER` with its checks passed leaves every pixel of `WORK` black or white with the alpha of the same
pixel of `IN`, sets `WORK_LEN`, and writes nothing but `WORK` and `WORK_LEN`. -/
def Obligations.DitherLeavesBlackAndWhite : Prop :=
  ∀ s : State, s.ConfigInv → s.imageReady s.inLen →
    ∃ t, exec .dither s = .next t ∧ t.workLen = s.inLen ∧
      (∀ x y, x < s.imageW → y < s.imageH →
        ((t.readPixel .work s.imageW x y).isBlack ∨ (t.readPixel .work s.imageW x y).isWhite) ∧
          (t.readPixel .work s.imageW x y).A = (s.readPixel .input s.imageW x y).A) ∧
      (∀ j, 4 * s.imageW * s.imageH ≤ j → t.readByte .work j = s.readByte .work j) ∧
      t = { s with workBuf := t.workBuf, workLen := t.workLen } ∧ SameBytes .input s t ∧ SameBytes .output s t

/-- R606: the pass is a function of the image bytes, the size, the configuration and the parameters: two blocks that
agree on these leave the same bytes in `WORK`, whatever else they held. -/
def Obligations.DitherDependsOnlyOnImageAndConfiguration : Prop :=
  ∀ a b : State, a.params = b.params → a.cfg = b.cfg → a.width = b.width → a.height = b.height → a.inLen = b.inLen →
    (∀ j, j < 4 * a.imageW * a.imageH → a.readByte .input j = b.readByte .input j) → a.imageReady a.inLen →
    ∃ a' b', exec .dither a = .next a' ∧ exec .dither b = .next b' ∧ a'.workLen = b'.workLen ∧
      ∀ j, j < 4 * a.imageW * a.imageH → a'.readByte .work j = b'.readByte .work j

/-- R605, R503: two images that differ only in alpha leave the same colours. -/
def Obligations.DitherColoursIgnoreAlpha : Prop :=
  ∀ a b : State, a.params = b.params → a.cfg = b.cfg → a.width = b.width → a.height = b.height → a.inLen = b.inLen →
    (∀ x y k, x < a.imageW → y < a.imageH → k < 3 →
      a.readByte .input (pixelIndex a.imageW x y + k) = b.readByte .input (pixelIndex a.imageW x y + k)) →
    a.imageReady a.inLen →
    ∃ a' b', exec .dither a = .next a' ∧ exec .dither b = .next b' ∧
      ∀ x y k, x < a.imageW → y < a.imageH → k < 3 →
        a'.readByte .work (pixelIndex a.imageW x y + k) = b'.readByte .work (pixelIndex a.imageW x y + k)

/-- R556, R607: the top row and the leftmost column receive no error, so each pixel there is thresholded alone; an image
of width 1 or height 1 is therefore thresholded pixel by pixel. -/
def Obligations.EdgePixelsAreThresholdedAlone : Prop :=
  ∀ s : State, s.ConfigInv → s.imageReady s.inLen →
    ∃ t, exec .dither s = .next t ∧
      ∀ x y, x < s.imageW → y < s.imageH → x = 0 ∨ y = 0 →
        t.readPixel .work s.imageW x y = thresholdPixel s.threshold (s.readPixel .input s.imageW x y)

/-- An image whose every pixel is its own thresholded value passes the dither pass unchanged: every error is 0. -/
def Obligations.ThresholdedImagePassesUnchanged : Prop :=
  ∀ s : State, s.ConfigInv → s.imageReady s.inLen →
    (∀ x y, x < s.imageW → y < s.imageH →
      thresholdPixel s.threshold (s.readPixel .input s.imageW x y) = s.readPixel .input s.imageW x y) →
    ∃ t, exec .dither s = .next t ∧
      ∀ j, j < 4 * s.imageW * s.imageH → t.readByte .work j = s.readByte .input j

/-! ## The packer and `RASTER` -/

/-- R205, R650 to R654: `PACK` with its checks passed sets `OUT_LEN` to `ceil(W/8)·H`; bit `7 - x mod 8` of byte
`y·ceil(W/8) + x div 8` of `OUT` is 1 exactly when pixel `(x, y)` of the source is dark; the unused low bits of a row's
last byte are 0; bytes at and beyond `OUT_LEN` are as before; and nothing else is written. -/
def Obligations.PackSetsOneBitPerPixel : Prop :=
  ∀ (s : State) (src : Nat), src < 2 →
    s.imageReady (if src = 0 then s.inLen else s.workLen) →
    ∃ t, exec (.pack src) s = .next t ∧ t.outLen.toNat = (s.imageW + 7) / 8 * s.imageH ∧
      (∀ x y, x < s.imageW → y < s.imageH →
        t.outBit s.imageW x y =
          decide (lum1000 (s.readPixel (if src = 0 then .input else .work) s.imageW x y) < 1000 * s.cfg.thr.toNat)) ∧
      (∀ x y, s.imageW ≤ x → x < 8 * ((s.imageW + 7) / 8) → y < s.imageH → t.outBit s.imageW x y = false) ∧
      (∀ j, (s.imageW + 7) / 8 * s.imageH ≤ j → t.readByte .output j = s.readByte .output j) ∧
      t = { s with outBuf := t.outBuf, outLen := t.outLen } ∧ SameBytes .input s t ∧ SameBytes .work s t

/-- R654, R803, R804, R807, R810: `PACK`'s three faults, each raised exactly where the checks before it pass; the `ARG`
check comes first. -/
def Obligations.PackFaultsInOrder : Prop :=
  ∀ (s : State) (src : Nat),
    (2 ≤ src → exec (.pack src) s = .next (s.raise .badOperand 0x08)) ∧
    (src < 2 → ¬ s.sizeLegal → exec (.pack src) s = .next (s.raise .badDimension 0x08)) ∧
    (src < 2 → s.sizeLegal → (if src = 0 then s.inLen else s.workLen).toNat ≠ 4 * s.imageW * s.imageH →
      exec (.pack src) s = .next (s.raise .badLength 0x08))

/-- R700, R701: `RASTER` with its checks passed is `DITHER` followed by `PACK WORK`, in the whole state. -/
def Obligations.RasterIsDitherThenPackWork : Prop :=
  ∀ s : State, s.imageReady s.inLen →
    ∃ d t, exec .dither s = .next d ∧ exec (.pack 1) d = .next t ∧ exec .raster s = .next t

/-- R655: after `RASTER`, and after `DITHER` followed by `PACK WORK`, with a legal configuration, the output bit of a
pixel is 1 exactly when the pass left the pixel black; so the packer repeats the thresholder's decision. -/
def Obligations.RasterBitsAreTheBlackPixels : Prop :=
  ∀ s : State, s.ConfigInv → s.imageReady s.inLen →
    (∃ t, exec .raster s = .next t ∧ t.outLen.toNat = (s.imageW + 7) / 8 * s.imageH ∧ t.workLen = s.inLen ∧
      ∀ x y, x < s.imageW → y < s.imageH →
        (t.outBit s.imageW x y = true ↔ (t.readPixel .work s.imageW x y).isBlack)) ∧
    (∃ d t, exec .dither s = .next d ∧ exec (.pack 1) d = .next t ∧
      ∀ x y, x < s.imageW → y < s.imageH →
        (t.outBit s.imageW x y = true ↔ (d.readPixel .work s.imageW x y).isBlack))

/-- The document's all-white and all-black images (spec/95_test_vectors.md L1-2, L1-3; spec/90_conflicts.md C2): a white
image gives only 0 bits at every threshold, a black one only 1 bits at every threshold from 1 on. -/
def Obligations.UniformImagesRasterToUniformBits : Prop :=
  ∀ s : State, s.ConfigInv → s.imageReady s.inLen →
    ∃ t, exec .raster s = .next t ∧
      ((∀ x y, x < s.imageW → y < s.imageH → (s.readPixel .input s.imageW x y).isWhite) →
        ∀ x y, x < s.imageW → y < s.imageH → t.outBit s.imageW x y = false) ∧
      (1 ≤ s.threshold → (∀ x y, x < s.imageW → y < s.imageH → (s.readPixel .input s.imageW x y).isBlack) →
        ∀ x y, x < s.imageW → y < s.imageH → t.outBit s.imageW x y = true)

/-! ## The host port and reset -/

/-- R122, R128, R129: for legal parameters the cells of the two kernel arrays stand at `0x100 + r·KMAX_COLS + c` and
`0x200 + r·KMAX_COLS + c`, and every index R129 lists has no register. -/
def Obligations.RegisterMapPlacesTheKernelCells : Prop :=
  ∀ p : Params, p.legal →
    (∀ r c, r < p.kmaxRows → c < p.kmaxCols →
      regOfIndex p (0x100 + r * p.kmaxCols + c) = some (.sKw (cellOffset p r c)) ∧
      regOfIndex p (0x200 + r * p.kmaxCols + c) = some (.cfgKw (cellOffset p r c))) ∧
    (∀ j, j = 0x00E ∨ j = 0x00F ∨ (0x015 ≤ j ∧ j ≤ 0x01F) ∨ (0x025 ≤ j ∧ j ≤ 0x0FF) ∨
        (0x100 + p.kmaxRows * p.kmaxCols ≤ j ∧ j ≤ 0x1FF) ∨ 0x200 + p.kmaxRows * p.kmaxCols ≤ j →
      regOfIndex p j = none)

/-- R102 to R128: the 24 named registers, each at its index, with its access kind, reading as its own field of the state
(`CMD` as 0); and the access kinds and cells of the two kernel arrays. -/
def Obligations.RegisterMapPlacesTheNamedRegisters : Prop :=
  ∀ s : State,
    (∀ e ∈ ([ (0x000, .cmd, .wo, 0), (0x001, .status, .ro, s.status), (0x002, .width, .rw, s.width),
          (0x003, .height, .rw, s.height), (0x004, .inLen, .rw, s.inLen), (0x005, .workLen, .ro, s.workLen),
          (0x006, .outLen, .ro, s.outLen), (0x007, .posX, .rw, s.posX), (0x008, .posY, .rw, s.posY) ] ++
        [ (0x009, .pixOrig, .rw, s.pixOrig), (0x00A, .pixQuant, .rw, s.pixQuant), (0x00B, .clampNum, .rw, s.clampNum),
          (0x00C, .clampDen, .rw, s.clampDen), (0x00D, .clampOut, .ro, s.clampOut) ] ++
        [ (0x010, .sKrows, .rw, s.staged.krows), (0x011, .sKcols, .rw, s.staged.kcols), (0x012, .sDiv, .rw, s.staged.div),
          (0x013, .sThrNum, .rw, s.staged.thrNum), (0x014, .sThrDen, .rw, s.staged.thrDen) ] ++
        [ (0x020, .cfgKrows, .ro, s.cfg.krows), (0x021, .cfgKcols, .ro, s.cfg.kcols), (0x022, .cfgDiv, .ro, s.cfg.div),
          (0x023, .cfgThr, .ro, s.cfg.thr), (0x024, .cfgAnchor, .ro, s.cfg.anchor) ] :
        List (Nat × Reg × Access × Word)),
      regOfIndex s.params e.1 = some e.2.1 ∧ accessOf e.2.1 = e.2.2.1 ∧ s.readReg e.2.1 = e.2.2.2) ∧
    (∀ k, accessOf (.sKw k) = .rw ∧ accessOf (.cfgKw k) = .ro) ∧
    (∀ r c, s.readReg (.sKw (cellOffset s.params r c)) = cellAt s.params s.staged.kw r c ∧
      s.readReg (.cfgKw (cellOffset s.params r c)) = cellAt s.params s.cfg.kw r c)

/-- R705: `GET` of an assigned index returns the register's value (`CMD` 0) and changes nothing of the block; of an
unassigned one it returns 0 and faults. -/
def Obligations.GetReturnsTheRegister : Prop :=
  ∀ (s : State) (j : Nat) (rest : List HostAction), s.host = .get j :: rest →
    (∀ r, regOfIndex s.params j = some r →
      step s = .next { s with host := rest, replies := .word (if r = .cmd then 0 else s.readReg r) :: s.replies }) ∧
    (regOfIndex s.params j = none →
      step s = .next (({ s with host := rest, replies := .word 0 :: s.replies } : State).raise .illegalAccess 0xFF))

/-- R706: `SET` of a read-write register stores the value, which reads back, and changes no other register, buffer or
length. -/
def Obligations.SetStoresOneRegister : Prop :=
  ∀ (s : State) (j : Nat) (v : Word) (r : Reg) (rest : List HostAction), s.Inv → s.host = .set j v :: rest →
    regOfIndex s.params j = some r → accessOf r = .rw → (r = .inLen → v.toNat ≤ s.params.imageCap) →
    ∃ t, step s = .next t ∧ t.readReg r = v ∧ (∀ r', r' ≠ r → t.readReg r' = s.readReg r') ∧
      t.inBuf = s.inBuf ∧ t.workBuf = s.workBuf ∧ t.outBuf = s.outBuf ∧ t.host = rest ∧ t.replies = s.replies ∧
      t.params = s.params ∧ t.epoch = s.epoch

/-- R706, R808: `SET` of an unassigned index, of a read-only register, or of `IN_LEN` above `IN_CAP` faults
`ILLEGAL_ACCESS` and writes nothing. -/
def Obligations.ForbiddenSetFaults : Prop :=
  ∀ (s : State) (j : Nat) (v : Word) (rest : List HostAction), s.host = .set j v :: rest →
    (regOfIndex s.params j = none ∨ (∃ r, regOfIndex s.params j = some r ∧ accessOf r = .ro) ∨
      (regOfIndex s.params j = some .inLen ∧ s.params.imageCap < v.toNat)) →
    step s = .next (({ s with host := rest } : State).raise .illegalAccess 0xFF)

/-- R212, R708: `WRB` to `IN` below its capacity stores the byte and changes no other byte of any buffer and no register;
any other `WRB` faults `ILLEGAL_ACCESS` and writes nothing. -/
def Obligations.WrbStoresOneInputByte : Prop :=
  ∀ (s : State) (b : Buf) (i : Nat) (v : Byte) (rest : List HostAction), s.host = .wrb b i v :: rest →
    (b = .input → i < s.params.imageCap →
      ∃ t, step s = .next t ∧ t.readByte .input i = v ∧ (∀ j, j ≠ i → t.readByte .input j = s.readByte .input j) ∧
        SameBytes .work s t ∧ SameBytes .output s t ∧ t = { s with host := rest, inBuf := t.inBuf }) ∧
    (¬ (b = .input ∧ i < s.params.imageCap) →
      step s = .next (({ s with host := rest } : State).raise .illegalAccess 0xFF))

/-- R211, R707: `RDB`'s three outcomes: below the readable length the byte, with nothing else changed; between it and the
capacity refused, with no step; at or beyond the capacity 0 and a fault. -/
def Obligations.RdbHasThreeOutcomes : Prop :=
  ∀ (s : State) (b : Buf) (i : Nat) (rest : List HostAction), s.host = .rdb b i :: rest →
    let valid := match b with
      | .input => s.params.imageCap
      | .work => s.workLen.toNat
      | .output => s.outLen.toNat
    (i < bufCap s.params b → i < valid →
      step s = .next { s with host := rest, replies := .byte (s.readByte b i) :: s.replies }) ∧
    (i < bufCap s.params b → valid ≤ i → step s = .refused (.undefinedByte b i)) ∧
    (bufCap s.params b ≤ i →
      step s = .next (({ s with host := rest, replies := .byte 0 :: s.replies } : State).raise .illegalAccess 0xFF))

/-- R900: reset gives every register the value R900 states and leaves no byte of any buffer written, each a draw. -/
def Obligations.ResetGivesTheStatedValues : Prop :=
  ∀ (s : State) (rest : List HostAction), s.host = .reset :: rest →
    ∃ t, step s = .next t ∧ t.status = 0 ∧ t.width = 0 ∧ t.height = 0 ∧ t.inLen = 0 ∧ t.workLen = 0 ∧ t.outLen = 0 ∧
      t.posX = 0 ∧ t.posY = 0 ∧ t.pixOrig = 0 ∧ t.pixQuant = 0 ∧ t.clampNum = 0 ∧ t.clampDen = 1 ∧ t.clampOut = 0 ∧
      t.staged.krows = 3 ∧ t.staged.kcols = 5 ∧ t.staged.div = 48 ∧ t.staged.thrNum = 128 ∧ t.staged.thrDen = 1 ∧
      t.cfg.krows = 3 ∧ t.cfg.kcols = 5 ∧ t.cfg.div = 48 ∧ t.cfg.thr = 128 ∧ t.cfg.anchor = 2 ∧
      (∀ r c, r < s.params.kmaxRows → c < s.params.kmaxCols →
        cellAt s.params t.staged.kw r c = (if r < 3 ∧ c < 5 then weightAt jjnMatrix r c else 0) ∧
        cellAt s.params t.cfg.kw r c = (if r < 3 ∧ c < 5 then weightAt jjnMatrix r c else 0)) ∧
      (∀ b i, (t.buf b).lookup i = none)

/-- The model's own queue (assumption log 2): each step of a block with a host action to come takes exactly that action
and gives at most one reply; a reply is the read's own, and no other action gives one. -/
def Obligations.EachStepTakesOneHostAction : Prop :=
  ∀ (s t : State) (a : HostAction) (rest : List HostAction), s.host = a :: rest → step s = .next t →
    t.host = rest ∧
    (((∃ j, a = .get j) ∨ ∃ b i, a = .rdb b i) → ∃ r, t.replies = r :: s.replies) ∧
    ((∀ j, a ≠ .get j) → (∀ b i, a ≠ .rdb b i) → t.replies = s.replies)
end

