-- ==== Sys2Proof/Laws/Bits.lean ====
section
/-! SUPPORT. Four bytes joined into a word (R20): the word's number, its bits, and each byte read back. -/
namespace Sys2Proof

theorem joinBytes_toNat (a b c d : Byte) :
    (joinBytes a b c d).toNat = a.toNat * 2 ^ 24 + b.toNat * 2 ^ 16 + c.toNat * 2 ^ 8 + d.toNat := by
  have hd : d.toNat < 2 ^ 8 := d.isLt
  have hc : c.toNat < 2 ^ 8 := c.isLt
  have hb : b.toNat < 2 ^ 8 := b.isLt
  rw [joinBytes, BitVec.toNat_cast, BitVec.toNat_append, BitVec.toNat_append, BitVec.toNat_append,
    ← Nat.shiftLeft_add_eq_or_of_lt hd,
    ← Nat.shiftLeft_add_eq_or_of_lt (show c.toNat <<< 8 + d.toNat < 2 ^ (8 + 8) by rw [Nat.shiftLeft_eq]; omega),
    ← Nat.shiftLeft_add_eq_or_of_lt (show b.toNat <<< (8 + 8) + (c.toNat <<< 8 + d.toNat) < 2 ^ (8 + (8 + 8)) by
      rw [Nat.shiftLeft_eq, Nat.shiftLeft_eq]; omega)]
  simp only [Nat.shiftLeft_eq]
  omega

@[simp] theorem joinBytes_byte3 (a b c d : Byte) : (joinBytes a b c d).extractLsb' 24 8 = a := by
  apply BitVec.eq_of_toNat_eq
  rw [BitVec.extractLsb'_toNat, joinBytes_toNat, Nat.shiftRight_eq_div_pow]
  omega

@[simp] theorem joinBytes_byte2 (a b c d : Byte) : (joinBytes a b c d).extractLsb' 16 8 = b := by
  apply BitVec.eq_of_toNat_eq
  rw [BitVec.extractLsb'_toNat, joinBytes_toNat, Nat.shiftRight_eq_div_pow]
  omega

@[simp] theorem joinBytes_byte1 (a b c d : Byte) : (joinBytes a b c d).extractLsb' 8 8 = c := by
  apply BitVec.eq_of_toNat_eq
  rw [BitVec.extractLsb'_toNat, joinBytes_toNat, Nat.shiftRight_eq_div_pow]
  omega

@[simp] theorem joinBytes_byte0 (a b c d : Byte) : (joinBytes a b c d).extractLsb' 0 8 = d := by
  apply BitVec.eq_of_toNat_eq
  rw [BitVec.extractLsb'_toNat, joinBytes_toNat, Nat.shiftRight_eq_div_pow]
  omega

end Sys2Proof
end

