-- ==== Sys2Proof/Laws/State.lean ====
section
/-! SUPPORT. What each named update of the state leaves in each field: one lemma per field and update, so that no later
proof unfolds a record update. -/
namespace Sys2Proof.Machine

/-! ### `setStatus` -/

@[simp] theorem State.setStatus_params (s : State) (v : Word) : (s.setStatus v).params = s.params := rfl
@[simp] theorem State.setStatus_status (s : State) (v : Word) : (s.setStatus v).status = v := rfl
@[simp] theorem State.setStatus_width (s : State) (v : Word) : (s.setStatus v).width = s.width := rfl
@[simp] theorem State.setStatus_height (s : State) (v : Word) : (s.setStatus v).height = s.height := rfl
@[simp] theorem State.setStatus_inLen (s : State) (v : Word) : (s.setStatus v).inLen = s.inLen := rfl
@[simp] theorem State.setStatus_workLen (s : State) (v : Word) : (s.setStatus v).workLen = s.workLen := rfl
@[simp] theorem State.setStatus_outLen (s : State) (v : Word) : (s.setStatus v).outLen = s.outLen := rfl
@[simp] theorem State.setStatus_posX (s : State) (v : Word) : (s.setStatus v).posX = s.posX := rfl
@[simp] theorem State.setStatus_posY (s : State) (v : Word) : (s.setStatus v).posY = s.posY := rfl
@[simp] theorem State.setStatus_pixOrig (s : State) (v : Word) : (s.setStatus v).pixOrig = s.pixOrig := rfl
@[simp] theorem State.setStatus_pixQuant (s : State) (v : Word) : (s.setStatus v).pixQuant = s.pixQuant := rfl
@[simp] theorem State.setStatus_clampNum (s : State) (v : Word) : (s.setStatus v).clampNum = s.clampNum := rfl
@[simp] theorem State.setStatus_clampDen (s : State) (v : Word) : (s.setStatus v).clampDen = s.clampDen := rfl
@[simp] theorem State.setStatus_clampOut (s : State) (v : Word) : (s.setStatus v).clampOut = s.clampOut := rfl
@[simp] theorem State.setStatus_staged (s : State) (v : Word) : (s.setStatus v).staged = s.staged := rfl
@[simp] theorem State.setStatus_cfg (s : State) (v : Word) : (s.setStatus v).cfg = s.cfg := rfl
@[simp] theorem State.setStatus_inBuf (s : State) (v : Word) : (s.setStatus v).inBuf = s.inBuf := rfl
@[simp] theorem State.setStatus_workBuf (s : State) (v : Word) : (s.setStatus v).workBuf = s.workBuf := rfl
@[simp] theorem State.setStatus_outBuf (s : State) (v : Word) : (s.setStatus v).outBuf = s.outBuf := rfl
@[simp] theorem State.setStatus_epoch (s : State) (v : Word) : (s.setStatus v).epoch = s.epoch := rfl
@[simp] theorem State.setStatus_host (s : State) (v : Word) : (s.setStatus v).host = s.host := rfl
@[simp] theorem State.setStatus_replies (s : State) (v : Word) : (s.setStatus v).replies = s.replies := rfl

/-! ### `setWorkLen` -/

@[simp] theorem State.setWorkLen_params (s : State) (v : Word) : (s.setWorkLen v).params = s.params := rfl
@[simp] theorem State.setWorkLen_status (s : State) (v : Word) : (s.setWorkLen v).status = s.status := rfl
@[simp] theorem State.setWorkLen_width (s : State) (v : Word) : (s.setWorkLen v).width = s.width := rfl
@[simp] theorem State.setWorkLen_height (s : State) (v : Word) : (s.setWorkLen v).height = s.height := rfl
@[simp] theorem State.setWorkLen_inLen (s : State) (v : Word) : (s.setWorkLen v).inLen = s.inLen := rfl
@[simp] theorem State.setWorkLen_workLen (s : State) (v : Word) : (s.setWorkLen v).workLen = v := rfl
@[simp] theorem State.setWorkLen_outLen (s : State) (v : Word) : (s.setWorkLen v).outLen = s.outLen := rfl
@[simp] theorem State.setWorkLen_posX (s : State) (v : Word) : (s.setWorkLen v).posX = s.posX := rfl
@[simp] theorem State.setWorkLen_posY (s : State) (v : Word) : (s.setWorkLen v).posY = s.posY := rfl
@[simp] theorem State.setWorkLen_pixOrig (s : State) (v : Word) : (s.setWorkLen v).pixOrig = s.pixOrig := rfl
@[simp] theorem State.setWorkLen_pixQuant (s : State) (v : Word) : (s.setWorkLen v).pixQuant = s.pixQuant := rfl
@[simp] theorem State.setWorkLen_clampNum (s : State) (v : Word) : (s.setWorkLen v).clampNum = s.clampNum := rfl
@[simp] theorem State.setWorkLen_clampDen (s : State) (v : Word) : (s.setWorkLen v).clampDen = s.clampDen := rfl
@[simp] theorem State.setWorkLen_clampOut (s : State) (v : Word) : (s.setWorkLen v).clampOut = s.clampOut := rfl
@[simp] theorem State.setWorkLen_staged (s : State) (v : Word) : (s.setWorkLen v).staged = s.staged := rfl
@[simp] theorem State.setWorkLen_cfg (s : State) (v : Word) : (s.setWorkLen v).cfg = s.cfg := rfl
@[simp] theorem State.setWorkLen_inBuf (s : State) (v : Word) : (s.setWorkLen v).inBuf = s.inBuf := rfl
@[simp] theorem State.setWorkLen_workBuf (s : State) (v : Word) : (s.setWorkLen v).workBuf = s.workBuf := rfl
@[simp] theorem State.setWorkLen_outBuf (s : State) (v : Word) : (s.setWorkLen v).outBuf = s.outBuf := rfl
@[simp] theorem State.setWorkLen_epoch (s : State) (v : Word) : (s.setWorkLen v).epoch = s.epoch := rfl
@[simp] theorem State.setWorkLen_host (s : State) (v : Word) : (s.setWorkLen v).host = s.host := rfl
@[simp] theorem State.setWorkLen_replies (s : State) (v : Word) : (s.setWorkLen v).replies = s.replies := rfl

/-! ### `setOutLen` -/

@[simp] theorem State.setOutLen_params (s : State) (v : Word) : (s.setOutLen v).params = s.params := rfl
@[simp] theorem State.setOutLen_status (s : State) (v : Word) : (s.setOutLen v).status = s.status := rfl
@[simp] theorem State.setOutLen_width (s : State) (v : Word) : (s.setOutLen v).width = s.width := rfl
@[simp] theorem State.setOutLen_height (s : State) (v : Word) : (s.setOutLen v).height = s.height := rfl
@[simp] theorem State.setOutLen_inLen (s : State) (v : Word) : (s.setOutLen v).inLen = s.inLen := rfl
@[simp] theorem State.setOutLen_workLen (s : State) (v : Word) : (s.setOutLen v).workLen = s.workLen := rfl
@[simp] theorem State.setOutLen_outLen (s : State) (v : Word) : (s.setOutLen v).outLen = v := rfl
@[simp] theorem State.setOutLen_posX (s : State) (v : Word) : (s.setOutLen v).posX = s.posX := rfl
@[simp] theorem State.setOutLen_posY (s : State) (v : Word) : (s.setOutLen v).posY = s.posY := rfl
@[simp] theorem State.setOutLen_pixOrig (s : State) (v : Word) : (s.setOutLen v).pixOrig = s.pixOrig := rfl
@[simp] theorem State.setOutLen_pixQuant (s : State) (v : Word) : (s.setOutLen v).pixQuant = s.pixQuant := rfl
@[simp] theorem State.setOutLen_clampNum (s : State) (v : Word) : (s.setOutLen v).clampNum = s.clampNum := rfl
@[simp] theorem State.setOutLen_clampDen (s : State) (v : Word) : (s.setOutLen v).clampDen = s.clampDen := rfl
@[simp] theorem State.setOutLen_clampOut (s : State) (v : Word) : (s.setOutLen v).clampOut = s.clampOut := rfl
@[simp] theorem State.setOutLen_staged (s : State) (v : Word) : (s.setOutLen v).staged = s.staged := rfl
@[simp] theorem State.setOutLen_cfg (s : State) (v : Word) : (s.setOutLen v).cfg = s.cfg := rfl
@[simp] theorem State.setOutLen_inBuf (s : State) (v : Word) : (s.setOutLen v).inBuf = s.inBuf := rfl
@[simp] theorem State.setOutLen_workBuf (s : State) (v : Word) : (s.setOutLen v).workBuf = s.workBuf := rfl
@[simp] theorem State.setOutLen_outBuf (s : State) (v : Word) : (s.setOutLen v).outBuf = s.outBuf := rfl
@[simp] theorem State.setOutLen_epoch (s : State) (v : Word) : (s.setOutLen v).epoch = s.epoch := rfl
@[simp] theorem State.setOutLen_host (s : State) (v : Word) : (s.setOutLen v).host = s.host := rfl
@[simp] theorem State.setOutLen_replies (s : State) (v : Word) : (s.setOutLen v).replies = s.replies := rfl

/-! ### `setPixQuant` -/

@[simp] theorem State.setPixQuant_params (s : State) (v : Word) : (s.setPixQuant v).params = s.params := rfl
@[simp] theorem State.setPixQuant_status (s : State) (v : Word) : (s.setPixQuant v).status = s.status := rfl
@[simp] theorem State.setPixQuant_width (s : State) (v : Word) : (s.setPixQuant v).width = s.width := rfl
@[simp] theorem State.setPixQuant_height (s : State) (v : Word) : (s.setPixQuant v).height = s.height := rfl
@[simp] theorem State.setPixQuant_inLen (s : State) (v : Word) : (s.setPixQuant v).inLen = s.inLen := rfl
@[simp] theorem State.setPixQuant_workLen (s : State) (v : Word) : (s.setPixQuant v).workLen = s.workLen := rfl
@[simp] theorem State.setPixQuant_outLen (s : State) (v : Word) : (s.setPixQuant v).outLen = s.outLen := rfl
@[simp] theorem State.setPixQuant_posX (s : State) (v : Word) : (s.setPixQuant v).posX = s.posX := rfl
@[simp] theorem State.setPixQuant_posY (s : State) (v : Word) : (s.setPixQuant v).posY = s.posY := rfl
@[simp] theorem State.setPixQuant_pixOrig (s : State) (v : Word) : (s.setPixQuant v).pixOrig = s.pixOrig := rfl
@[simp] theorem State.setPixQuant_pixQuant (s : State) (v : Word) : (s.setPixQuant v).pixQuant = v := rfl
@[simp] theorem State.setPixQuant_clampNum (s : State) (v : Word) : (s.setPixQuant v).clampNum = s.clampNum := rfl
@[simp] theorem State.setPixQuant_clampDen (s : State) (v : Word) : (s.setPixQuant v).clampDen = s.clampDen := rfl
@[simp] theorem State.setPixQuant_clampOut (s : State) (v : Word) : (s.setPixQuant v).clampOut = s.clampOut := rfl
@[simp] theorem State.setPixQuant_staged (s : State) (v : Word) : (s.setPixQuant v).staged = s.staged := rfl
@[simp] theorem State.setPixQuant_cfg (s : State) (v : Word) : (s.setPixQuant v).cfg = s.cfg := rfl
@[simp] theorem State.setPixQuant_inBuf (s : State) (v : Word) : (s.setPixQuant v).inBuf = s.inBuf := rfl
@[simp] theorem State.setPixQuant_workBuf (s : State) (v : Word) : (s.setPixQuant v).workBuf = s.workBuf := rfl
@[simp] theorem State.setPixQuant_outBuf (s : State) (v : Word) : (s.setPixQuant v).outBuf = s.outBuf := rfl
@[simp] theorem State.setPixQuant_epoch (s : State) (v : Word) : (s.setPixQuant v).epoch = s.epoch := rfl
@[simp] theorem State.setPixQuant_host (s : State) (v : Word) : (s.setPixQuant v).host = s.host := rfl
@[simp] theorem State.setPixQuant_replies (s : State) (v : Word) : (s.setPixQuant v).replies = s.replies := rfl

/-! ### `setClampOut` -/

@[simp] theorem State.setClampOut_params (s : State) (v : Word) : (s.setClampOut v).params = s.params := rfl
@[simp] theorem State.setClampOut_status (s : State) (v : Word) : (s.setClampOut v).status = s.status := rfl
@[simp] theorem State.setClampOut_width (s : State) (v : Word) : (s.setClampOut v).width = s.width := rfl
@[simp] theorem State.setClampOut_height (s : State) (v : Word) : (s.setClampOut v).height = s.height := rfl
@[simp] theorem State.setClampOut_inLen (s : State) (v : Word) : (s.setClampOut v).inLen = s.inLen := rfl
@[simp] theorem State.setClampOut_workLen (s : State) (v : Word) : (s.setClampOut v).workLen = s.workLen := rfl
@[simp] theorem State.setClampOut_outLen (s : State) (v : Word) : (s.setClampOut v).outLen = s.outLen := rfl
@[simp] theorem State.setClampOut_posX (s : State) (v : Word) : (s.setClampOut v).posX = s.posX := rfl
@[simp] theorem State.setClampOut_posY (s : State) (v : Word) : (s.setClampOut v).posY = s.posY := rfl
@[simp] theorem State.setClampOut_pixOrig (s : State) (v : Word) : (s.setClampOut v).pixOrig = s.pixOrig := rfl
@[simp] theorem State.setClampOut_pixQuant (s : State) (v : Word) : (s.setClampOut v).pixQuant = s.pixQuant := rfl
@[simp] theorem State.setClampOut_clampNum (s : State) (v : Word) : (s.setClampOut v).clampNum = s.clampNum := rfl
@[simp] theorem State.setClampOut_clampDen (s : State) (v : Word) : (s.setClampOut v).clampDen = s.clampDen := rfl
@[simp] theorem State.setClampOut_clampOut (s : State) (v : Word) : (s.setClampOut v).clampOut = v := rfl
@[simp] theorem State.setClampOut_staged (s : State) (v : Word) : (s.setClampOut v).staged = s.staged := rfl
@[simp] theorem State.setClampOut_cfg (s : State) (v : Word) : (s.setClampOut v).cfg = s.cfg := rfl
@[simp] theorem State.setClampOut_inBuf (s : State) (v : Word) : (s.setClampOut v).inBuf = s.inBuf := rfl
@[simp] theorem State.setClampOut_workBuf (s : State) (v : Word) : (s.setClampOut v).workBuf = s.workBuf := rfl
@[simp] theorem State.setClampOut_outBuf (s : State) (v : Word) : (s.setClampOut v).outBuf = s.outBuf := rfl
@[simp] theorem State.setClampOut_epoch (s : State) (v : Word) : (s.setClampOut v).epoch = s.epoch := rfl
@[simp] theorem State.setClampOut_host (s : State) (v : Word) : (s.setClampOut v).host = s.host := rfl
@[simp] theorem State.setClampOut_replies (s : State) (v : Word) : (s.setClampOut v).replies = s.replies := rfl

/-! ### `setStaged` -/

@[simp] theorem State.setStaged_params (s : State) (v : Staged) : (s.setStaged v).params = s.params := rfl
@[simp] theorem State.setStaged_status (s : State) (v : Staged) : (s.setStaged v).status = s.status := rfl
@[simp] theorem State.setStaged_width (s : State) (v : Staged) : (s.setStaged v).width = s.width := rfl
@[simp] theorem State.setStaged_height (s : State) (v : Staged) : (s.setStaged v).height = s.height := rfl
@[simp] theorem State.setStaged_inLen (s : State) (v : Staged) : (s.setStaged v).inLen = s.inLen := rfl
@[simp] theorem State.setStaged_workLen (s : State) (v : Staged) : (s.setStaged v).workLen = s.workLen := rfl
@[simp] theorem State.setStaged_outLen (s : State) (v : Staged) : (s.setStaged v).outLen = s.outLen := rfl
@[simp] theorem State.setStaged_posX (s : State) (v : Staged) : (s.setStaged v).posX = s.posX := rfl
@[simp] theorem State.setStaged_posY (s : State) (v : Staged) : (s.setStaged v).posY = s.posY := rfl
@[simp] theorem State.setStaged_pixOrig (s : State) (v : Staged) : (s.setStaged v).pixOrig = s.pixOrig := rfl
@[simp] theorem State.setStaged_pixQuant (s : State) (v : Staged) : (s.setStaged v).pixQuant = s.pixQuant := rfl
@[simp] theorem State.setStaged_clampNum (s : State) (v : Staged) : (s.setStaged v).clampNum = s.clampNum := rfl
@[simp] theorem State.setStaged_clampDen (s : State) (v : Staged) : (s.setStaged v).clampDen = s.clampDen := rfl
@[simp] theorem State.setStaged_clampOut (s : State) (v : Staged) : (s.setStaged v).clampOut = s.clampOut := rfl
@[simp] theorem State.setStaged_staged (s : State) (v : Staged) : (s.setStaged v).staged = v := rfl
@[simp] theorem State.setStaged_cfg (s : State) (v : Staged) : (s.setStaged v).cfg = s.cfg := rfl
@[simp] theorem State.setStaged_inBuf (s : State) (v : Staged) : (s.setStaged v).inBuf = s.inBuf := rfl
@[simp] theorem State.setStaged_workBuf (s : State) (v : Staged) : (s.setStaged v).workBuf = s.workBuf := rfl
@[simp] theorem State.setStaged_outBuf (s : State) (v : Staged) : (s.setStaged v).outBuf = s.outBuf := rfl
@[simp] theorem State.setStaged_epoch (s : State) (v : Staged) : (s.setStaged v).epoch = s.epoch := rfl
@[simp] theorem State.setStaged_host (s : State) (v : Staged) : (s.setStaged v).host = s.host := rfl
@[simp] theorem State.setStaged_replies (s : State) (v : Staged) : (s.setStaged v).replies = s.replies := rfl

/-! ### `setCfg` -/

@[simp] theorem State.setCfg_params (s : State) (v : Configuration) : (s.setCfg v).params = s.params := rfl
@[simp] theorem State.setCfg_status (s : State) (v : Configuration) : (s.setCfg v).status = s.status := rfl
@[simp] theorem State.setCfg_width (s : State) (v : Configuration) : (s.setCfg v).width = s.width := rfl
@[simp] theorem State.setCfg_height (s : State) (v : Configuration) : (s.setCfg v).height = s.height := rfl
@[simp] theorem State.setCfg_inLen (s : State) (v : Configuration) : (s.setCfg v).inLen = s.inLen := rfl
@[simp] theorem State.setCfg_workLen (s : State) (v : Configuration) : (s.setCfg v).workLen = s.workLen := rfl
@[simp] theorem State.setCfg_outLen (s : State) (v : Configuration) : (s.setCfg v).outLen = s.outLen := rfl
@[simp] theorem State.setCfg_posX (s : State) (v : Configuration) : (s.setCfg v).posX = s.posX := rfl
@[simp] theorem State.setCfg_posY (s : State) (v : Configuration) : (s.setCfg v).posY = s.posY := rfl
@[simp] theorem State.setCfg_pixOrig (s : State) (v : Configuration) : (s.setCfg v).pixOrig = s.pixOrig := rfl
@[simp] theorem State.setCfg_pixQuant (s : State) (v : Configuration) : (s.setCfg v).pixQuant = s.pixQuant := rfl
@[simp] theorem State.setCfg_clampNum (s : State) (v : Configuration) : (s.setCfg v).clampNum = s.clampNum := rfl
@[simp] theorem State.setCfg_clampDen (s : State) (v : Configuration) : (s.setCfg v).clampDen = s.clampDen := rfl
@[simp] theorem State.setCfg_clampOut (s : State) (v : Configuration) : (s.setCfg v).clampOut = s.clampOut := rfl
@[simp] theorem State.setCfg_staged (s : State) (v : Configuration) : (s.setCfg v).staged = s.staged := rfl
@[simp] theorem State.setCfg_cfg (s : State) (v : Configuration) : (s.setCfg v).cfg = v := rfl
@[simp] theorem State.setCfg_inBuf (s : State) (v : Configuration) : (s.setCfg v).inBuf = s.inBuf := rfl
@[simp] theorem State.setCfg_workBuf (s : State) (v : Configuration) : (s.setCfg v).workBuf = s.workBuf := rfl
@[simp] theorem State.setCfg_outBuf (s : State) (v : Configuration) : (s.setCfg v).outBuf = s.outBuf := rfl
@[simp] theorem State.setCfg_epoch (s : State) (v : Configuration) : (s.setCfg v).epoch = s.epoch := rfl
@[simp] theorem State.setCfg_host (s : State) (v : Configuration) : (s.setCfg v).host = s.host := rfl
@[simp] theorem State.setCfg_replies (s : State) (v : Configuration) : (s.setCfg v).replies = s.replies := rfl

/-! ### `setHost` -/

@[simp] theorem State.setHost_params (s : State) (v : List HostAction) : (s.setHost v).params = s.params := rfl
@[simp] theorem State.setHost_status (s : State) (v : List HostAction) : (s.setHost v).status = s.status := rfl
@[simp] theorem State.setHost_width (s : State) (v : List HostAction) : (s.setHost v).width = s.width := rfl
@[simp] theorem State.setHost_height (s : State) (v : List HostAction) : (s.setHost v).height = s.height := rfl
@[simp] theorem State.setHost_inLen (s : State) (v : List HostAction) : (s.setHost v).inLen = s.inLen := rfl
@[simp] theorem State.setHost_workLen (s : State) (v : List HostAction) : (s.setHost v).workLen = s.workLen := rfl
@[simp] theorem State.setHost_outLen (s : State) (v : List HostAction) : (s.setHost v).outLen = s.outLen := rfl
@[simp] theorem State.setHost_posX (s : State) (v : List HostAction) : (s.setHost v).posX = s.posX := rfl
@[simp] theorem State.setHost_posY (s : State) (v : List HostAction) : (s.setHost v).posY = s.posY := rfl
@[simp] theorem State.setHost_pixOrig (s : State) (v : List HostAction) : (s.setHost v).pixOrig = s.pixOrig := rfl
@[simp] theorem State.setHost_pixQuant (s : State) (v : List HostAction) : (s.setHost v).pixQuant = s.pixQuant := rfl
@[simp] theorem State.setHost_clampNum (s : State) (v : List HostAction) : (s.setHost v).clampNum = s.clampNum := rfl
@[simp] theorem State.setHost_clampDen (s : State) (v : List HostAction) : (s.setHost v).clampDen = s.clampDen := rfl
@[simp] theorem State.setHost_clampOut (s : State) (v : List HostAction) : (s.setHost v).clampOut = s.clampOut := rfl
@[simp] theorem State.setHost_staged (s : State) (v : List HostAction) : (s.setHost v).staged = s.staged := rfl
@[simp] theorem State.setHost_cfg (s : State) (v : List HostAction) : (s.setHost v).cfg = s.cfg := rfl
@[simp] theorem State.setHost_inBuf (s : State) (v : List HostAction) : (s.setHost v).inBuf = s.inBuf := rfl
@[simp] theorem State.setHost_workBuf (s : State) (v : List HostAction) : (s.setHost v).workBuf = s.workBuf := rfl
@[simp] theorem State.setHost_outBuf (s : State) (v : List HostAction) : (s.setHost v).outBuf = s.outBuf := rfl
@[simp] theorem State.setHost_epoch (s : State) (v : List HostAction) : (s.setHost v).epoch = s.epoch := rfl
@[simp] theorem State.setHost_host (s : State) (v : List HostAction) : (s.setHost v).host = v := rfl
@[simp] theorem State.setHost_replies (s : State) (v : List HostAction) : (s.setHost v).replies = s.replies := rfl

/-! ### `reply` -/

@[simp] theorem State.reply_params (s : State) (r : HostReply) : (s.reply r).params = s.params := rfl
@[simp] theorem State.reply_status (s : State) (r : HostReply) : (s.reply r).status = s.status := rfl
@[simp] theorem State.reply_width (s : State) (r : HostReply) : (s.reply r).width = s.width := rfl
@[simp] theorem State.reply_height (s : State) (r : HostReply) : (s.reply r).height = s.height := rfl
@[simp] theorem State.reply_inLen (s : State) (r : HostReply) : (s.reply r).inLen = s.inLen := rfl
@[simp] theorem State.reply_workLen (s : State) (r : HostReply) : (s.reply r).workLen = s.workLen := rfl
@[simp] theorem State.reply_outLen (s : State) (r : HostReply) : (s.reply r).outLen = s.outLen := rfl
@[simp] theorem State.reply_posX (s : State) (r : HostReply) : (s.reply r).posX = s.posX := rfl
@[simp] theorem State.reply_posY (s : State) (r : HostReply) : (s.reply r).posY = s.posY := rfl
@[simp] theorem State.reply_pixOrig (s : State) (r : HostReply) : (s.reply r).pixOrig = s.pixOrig := rfl
@[simp] theorem State.reply_pixQuant (s : State) (r : HostReply) : (s.reply r).pixQuant = s.pixQuant := rfl
@[simp] theorem State.reply_clampNum (s : State) (r : HostReply) : (s.reply r).clampNum = s.clampNum := rfl
@[simp] theorem State.reply_clampDen (s : State) (r : HostReply) : (s.reply r).clampDen = s.clampDen := rfl
@[simp] theorem State.reply_clampOut (s : State) (r : HostReply) : (s.reply r).clampOut = s.clampOut := rfl
@[simp] theorem State.reply_staged (s : State) (r : HostReply) : (s.reply r).staged = s.staged := rfl
@[simp] theorem State.reply_cfg (s : State) (r : HostReply) : (s.reply r).cfg = s.cfg := rfl
@[simp] theorem State.reply_inBuf (s : State) (r : HostReply) : (s.reply r).inBuf = s.inBuf := rfl
@[simp] theorem State.reply_workBuf (s : State) (r : HostReply) : (s.reply r).workBuf = s.workBuf := rfl
@[simp] theorem State.reply_outBuf (s : State) (r : HostReply) : (s.reply r).outBuf = s.outBuf := rfl
@[simp] theorem State.reply_epoch (s : State) (r : HostReply) : (s.reply r).epoch = s.epoch := rfl
@[simp] theorem State.reply_host (s : State) (r : HostReply) : (s.reply r).host = s.host := rfl
@[simp] theorem State.reply_replies (s : State) (r : HostReply) : (s.reply r).replies = r :: s.replies := rfl

/-! ### `setBuf`, `writeByte` and `writeBytes`: every field that is no buffer -/

@[simp] theorem State.setBuf_params (s : State) (b : Buf) (m : Memory) : (s.setBuf b m).params = s.params := by cases b <;> rfl
@[simp] theorem State.setBuf_status (s : State) (b : Buf) (m : Memory) : (s.setBuf b m).status = s.status := by cases b <;> rfl
@[simp] theorem State.setBuf_width (s : State) (b : Buf) (m : Memory) : (s.setBuf b m).width = s.width := by cases b <;> rfl
@[simp] theorem State.setBuf_height (s : State) (b : Buf) (m : Memory) : (s.setBuf b m).height = s.height := by cases b <;> rfl
@[simp] theorem State.setBuf_inLen (s : State) (b : Buf) (m : Memory) : (s.setBuf b m).inLen = s.inLen := by cases b <;> rfl
@[simp] theorem State.setBuf_workLen (s : State) (b : Buf) (m : Memory) : (s.setBuf b m).workLen = s.workLen := by cases b <;> rfl
@[simp] theorem State.setBuf_outLen (s : State) (b : Buf) (m : Memory) : (s.setBuf b m).outLen = s.outLen := by cases b <;> rfl
@[simp] theorem State.setBuf_posX (s : State) (b : Buf) (m : Memory) : (s.setBuf b m).posX = s.posX := by cases b <;> rfl
@[simp] theorem State.setBuf_posY (s : State) (b : Buf) (m : Memory) : (s.setBuf b m).posY = s.posY := by cases b <;> rfl
@[simp] theorem State.setBuf_pixOrig (s : State) (b : Buf) (m : Memory) : (s.setBuf b m).pixOrig = s.pixOrig := by cases b <;> rfl
@[simp] theorem State.setBuf_pixQuant (s : State) (b : Buf) (m : Memory) : (s.setBuf b m).pixQuant = s.pixQuant := by cases b <;> rfl
@[simp] theorem State.setBuf_clampNum (s : State) (b : Buf) (m : Memory) : (s.setBuf b m).clampNum = s.clampNum := by cases b <;> rfl
@[simp] theorem State.setBuf_clampDen (s : State) (b : Buf) (m : Memory) : (s.setBuf b m).clampDen = s.clampDen := by cases b <;> rfl
@[simp] theorem State.setBuf_clampOut (s : State) (b : Buf) (m : Memory) : (s.setBuf b m).clampOut = s.clampOut := by cases b <;> rfl
@[simp] theorem State.setBuf_staged (s : State) (b : Buf) (m : Memory) : (s.setBuf b m).staged = s.staged := by cases b <;> rfl
@[simp] theorem State.setBuf_cfg (s : State) (b : Buf) (m : Memory) : (s.setBuf b m).cfg = s.cfg := by cases b <;> rfl
@[simp] theorem State.setBuf_epoch (s : State) (b : Buf) (m : Memory) : (s.setBuf b m).epoch = s.epoch := by cases b <;> rfl
@[simp] theorem State.setBuf_host (s : State) (b : Buf) (m : Memory) : (s.setBuf b m).host = s.host := by cases b <;> rfl
@[simp] theorem State.setBuf_replies (s : State) (b : Buf) (m : Memory) : (s.setBuf b m).replies = s.replies := by cases b <;> rfl

@[simp] theorem State.writeByte_params (s : State) (b : Buf) (i : Nat) (v : Byte) : (s.writeByte b i v).params = s.params := s.setBuf_params b _
@[simp] theorem State.writeByte_status (s : State) (b : Buf) (i : Nat) (v : Byte) : (s.writeByte b i v).status = s.status := s.setBuf_status b _
@[simp] theorem State.writeByte_width (s : State) (b : Buf) (i : Nat) (v : Byte) : (s.writeByte b i v).width = s.width := s.setBuf_width b _
@[simp] theorem State.writeByte_height (s : State) (b : Buf) (i : Nat) (v : Byte) : (s.writeByte b i v).height = s.height := s.setBuf_height b _
@[simp] theorem State.writeByte_inLen (s : State) (b : Buf) (i : Nat) (v : Byte) : (s.writeByte b i v).inLen = s.inLen := s.setBuf_inLen b _
@[simp] theorem State.writeByte_workLen (s : State) (b : Buf) (i : Nat) (v : Byte) : (s.writeByte b i v).workLen = s.workLen := s.setBuf_workLen b _
@[simp] theorem State.writeByte_outLen (s : State) (b : Buf) (i : Nat) (v : Byte) : (s.writeByte b i v).outLen = s.outLen := s.setBuf_outLen b _
@[simp] theorem State.writeByte_posX (s : State) (b : Buf) (i : Nat) (v : Byte) : (s.writeByte b i v).posX = s.posX := s.setBuf_posX b _
@[simp] theorem State.writeByte_posY (s : State) (b : Buf) (i : Nat) (v : Byte) : (s.writeByte b i v).posY = s.posY := s.setBuf_posY b _
@[simp] theorem State.writeByte_pixOrig (s : State) (b : Buf) (i : Nat) (v : Byte) : (s.writeByte b i v).pixOrig = s.pixOrig := s.setBuf_pixOrig b _
@[simp] theorem State.writeByte_pixQuant (s : State) (b : Buf) (i : Nat) (v : Byte) : (s.writeByte b i v).pixQuant = s.pixQuant := s.setBuf_pixQuant b _
@[simp] theorem State.writeByte_clampNum (s : State) (b : Buf) (i : Nat) (v : Byte) : (s.writeByte b i v).clampNum = s.clampNum := s.setBuf_clampNum b _
@[simp] theorem State.writeByte_clampDen (s : State) (b : Buf) (i : Nat) (v : Byte) : (s.writeByte b i v).clampDen = s.clampDen := s.setBuf_clampDen b _
@[simp] theorem State.writeByte_clampOut (s : State) (b : Buf) (i : Nat) (v : Byte) : (s.writeByte b i v).clampOut = s.clampOut := s.setBuf_clampOut b _
@[simp] theorem State.writeByte_staged (s : State) (b : Buf) (i : Nat) (v : Byte) : (s.writeByte b i v).staged = s.staged := s.setBuf_staged b _
@[simp] theorem State.writeByte_cfg (s : State) (b : Buf) (i : Nat) (v : Byte) : (s.writeByte b i v).cfg = s.cfg := s.setBuf_cfg b _
@[simp] theorem State.writeByte_epoch (s : State) (b : Buf) (i : Nat) (v : Byte) : (s.writeByte b i v).epoch = s.epoch := s.setBuf_epoch b _
@[simp] theorem State.writeByte_host (s : State) (b : Buf) (i : Nat) (v : Byte) : (s.writeByte b i v).host = s.host := s.setBuf_host b _
@[simp] theorem State.writeByte_replies (s : State) (b : Buf) (i : Nat) (v : Byte) : (s.writeByte b i v).replies = s.replies := s.setBuf_replies b _

@[simp] theorem State.writeBytes_params (s : State) (b : Buf) (i : Nat) (vs : List Byte) : (s.writeBytes b i vs).params = s.params := by
  induction vs generalizing s i with
  | nil => rfl
  | cons v vs ih => exact (ih _ _).trans (s.writeByte_params b i v)
@[simp] theorem State.writeBytes_status (s : State) (b : Buf) (i : Nat) (vs : List Byte) : (s.writeBytes b i vs).status = s.status := by
  induction vs generalizing s i with
  | nil => rfl
  | cons v vs ih => exact (ih _ _).trans (s.writeByte_status b i v)
@[simp] theorem State.writeBytes_width (s : State) (b : Buf) (i : Nat) (vs : List Byte) : (s.writeBytes b i vs).width = s.width := by
  induction vs generalizing s i with
  | nil => rfl
  | cons v vs ih => exact (ih _ _).trans (s.writeByte_width b i v)
@[simp] theorem State.writeBytes_height (s : State) (b : Buf) (i : Nat) (vs : List Byte) : (s.writeBytes b i vs).height = s.height := by
  induction vs generalizing s i with
  | nil => rfl
  | cons v vs ih => exact (ih _ _).trans (s.writeByte_height b i v)
@[simp] theorem State.writeBytes_inLen (s : State) (b : Buf) (i : Nat) (vs : List Byte) : (s.writeBytes b i vs).inLen = s.inLen := by
  induction vs generalizing s i with
  | nil => rfl
  | cons v vs ih => exact (ih _ _).trans (s.writeByte_inLen b i v)
@[simp] theorem State.writeBytes_workLen (s : State) (b : Buf) (i : Nat) (vs : List Byte) : (s.writeBytes b i vs).workLen = s.workLen := by
  induction vs generalizing s i with
  | nil => rfl
  | cons v vs ih => exact (ih _ _).trans (s.writeByte_workLen b i v)
@[simp] theorem State.writeBytes_outLen (s : State) (b : Buf) (i : Nat) (vs : List Byte) : (s.writeBytes b i vs).outLen = s.outLen := by
  induction vs generalizing s i with
  | nil => rfl
  | cons v vs ih => exact (ih _ _).trans (s.writeByte_outLen b i v)
@[simp] theorem State.writeBytes_posX (s : State) (b : Buf) (i : Nat) (vs : List Byte) : (s.writeBytes b i vs).posX = s.posX := by
  induction vs generalizing s i with
  | nil => rfl
  | cons v vs ih => exact (ih _ _).trans (s.writeByte_posX b i v)
@[simp] theorem State.writeBytes_posY (s : State) (b : Buf) (i : Nat) (vs : List Byte) : (s.writeBytes b i vs).posY = s.posY := by
  induction vs generalizing s i with
  | nil => rfl
  | cons v vs ih => exact (ih _ _).trans (s.writeByte_posY b i v)
@[simp] theorem State.writeBytes_pixOrig (s : State) (b : Buf) (i : Nat) (vs : List Byte) : (s.writeBytes b i vs).pixOrig = s.pixOrig := by
  induction vs generalizing s i with
  | nil => rfl
  | cons v vs ih => exact (ih _ _).trans (s.writeByte_pixOrig b i v)
@[simp] theorem State.writeBytes_pixQuant (s : State) (b : Buf) (i : Nat) (vs : List Byte) : (s.writeBytes b i vs).pixQuant = s.pixQuant := by
  induction vs generalizing s i with
  | nil => rfl
  | cons v vs ih => exact (ih _ _).trans (s.writeByte_pixQuant b i v)
@[simp] theorem State.writeBytes_clampNum (s : State) (b : Buf) (i : Nat) (vs : List Byte) : (s.writeBytes b i vs).clampNum = s.clampNum := by
  induction vs generalizing s i with
  | nil => rfl
  | cons v vs ih => exact (ih _ _).trans (s.writeByte_clampNum b i v)
@[simp] theorem State.writeBytes_clampDen (s : State) (b : Buf) (i : Nat) (vs : List Byte) : (s.writeBytes b i vs).clampDen = s.clampDen := by
  induction vs generalizing s i with
  | nil => rfl
  | cons v vs ih => exact (ih _ _).trans (s.writeByte_clampDen b i v)
@[simp] theorem State.writeBytes_clampOut (s : State) (b : Buf) (i : Nat) (vs : List Byte) : (s.writeBytes b i vs).clampOut = s.clampOut := by
  induction vs generalizing s i with
  | nil => rfl
  | cons v vs ih => exact (ih _ _).trans (s.writeByte_clampOut b i v)
@[simp] theorem State.writeBytes_staged (s : State) (b : Buf) (i : Nat) (vs : List Byte) : (s.writeBytes b i vs).staged = s.staged := by
  induction vs generalizing s i with
  | nil => rfl
  | cons v vs ih => exact (ih _ _).trans (s.writeByte_staged b i v)
@[simp] theorem State.writeBytes_cfg (s : State) (b : Buf) (i : Nat) (vs : List Byte) : (s.writeBytes b i vs).cfg = s.cfg := by
  induction vs generalizing s i with
  | nil => rfl
  | cons v vs ih => exact (ih _ _).trans (s.writeByte_cfg b i v)
@[simp] theorem State.writeBytes_epoch (s : State) (b : Buf) (i : Nat) (vs : List Byte) : (s.writeBytes b i vs).epoch = s.epoch := by
  induction vs generalizing s i with
  | nil => rfl
  | cons v vs ih => exact (ih _ _).trans (s.writeByte_epoch b i v)
@[simp] theorem State.writeBytes_host (s : State) (b : Buf) (i : Nat) (vs : List Byte) : (s.writeBytes b i vs).host = s.host := by
  induction vs generalizing s i with
  | nil => rfl
  | cons v vs ih => exact (ih _ _).trans (s.writeByte_host b i v)
@[simp] theorem State.writeBytes_replies (s : State) (b : Buf) (i : Nat) (vs : List Byte) : (s.writeBytes b i vs).replies = s.replies := by
  induction vs generalizing s i with
  | nil => rfl
  | cons v vs ih => exact (ih _ _).trans (s.writeByte_replies b i v)

/-! ### `raise`: every field but `STATUS` (R811) -/

/-- Fault entry as one write of `STATUS` (R811). -/
theorem State.raise_eq (s : State) (c : Cause) (opc : BitVec 8) :
    s.raise c opc = s.setStatus (if s.faulted then s.status else faultStatus c opc) := by
  rw [State.raise]
  cases s.faulted
  · rw [if_neg Bool.false_ne_true, if_neg Bool.false_ne_true]
  · rw [if_pos rfl, if_pos rfl]; rfl

@[simp] theorem State.raise_params (s : State) (c : Cause) (opc : BitVec 8) : (s.raise c opc).params = s.params := by rw [State.raise_eq, State.setStatus_params]
@[simp] theorem State.raise_width (s : State) (c : Cause) (opc : BitVec 8) : (s.raise c opc).width = s.width := by rw [State.raise_eq, State.setStatus_width]
@[simp] theorem State.raise_height (s : State) (c : Cause) (opc : BitVec 8) : (s.raise c opc).height = s.height := by rw [State.raise_eq, State.setStatus_height]
@[simp] theorem State.raise_inLen (s : State) (c : Cause) (opc : BitVec 8) : (s.raise c opc).inLen = s.inLen := by rw [State.raise_eq, State.setStatus_inLen]
@[simp] theorem State.raise_workLen (s : State) (c : Cause) (opc : BitVec 8) : (s.raise c opc).workLen = s.workLen := by rw [State.raise_eq, State.setStatus_workLen]
@[simp] theorem State.raise_outLen (s : State) (c : Cause) (opc : BitVec 8) : (s.raise c opc).outLen = s.outLen := by rw [State.raise_eq, State.setStatus_outLen]
@[simp] theorem State.raise_posX (s : State) (c : Cause) (opc : BitVec 8) : (s.raise c opc).posX = s.posX := by rw [State.raise_eq, State.setStatus_posX]
@[simp] theorem State.raise_posY (s : State) (c : Cause) (opc : BitVec 8) : (s.raise c opc).posY = s.posY := by rw [State.raise_eq, State.setStatus_posY]
@[simp] theorem State.raise_pixOrig (s : State) (c : Cause) (opc : BitVec 8) : (s.raise c opc).pixOrig = s.pixOrig := by rw [State.raise_eq, State.setStatus_pixOrig]
@[simp] theorem State.raise_pixQuant (s : State) (c : Cause) (opc : BitVec 8) : (s.raise c opc).pixQuant = s.pixQuant := by rw [State.raise_eq, State.setStatus_pixQuant]
@[simp] theorem State.raise_clampNum (s : State) (c : Cause) (opc : BitVec 8) : (s.raise c opc).clampNum = s.clampNum := by rw [State.raise_eq, State.setStatus_clampNum]
@[simp] theorem State.raise_clampDen (s : State) (c : Cause) (opc : BitVec 8) : (s.raise c opc).clampDen = s.clampDen := by rw [State.raise_eq, State.setStatus_clampDen]
@[simp] theorem State.raise_clampOut (s : State) (c : Cause) (opc : BitVec 8) : (s.raise c opc).clampOut = s.clampOut := by rw [State.raise_eq, State.setStatus_clampOut]
@[simp] theorem State.raise_staged (s : State) (c : Cause) (opc : BitVec 8) : (s.raise c opc).staged = s.staged := by rw [State.raise_eq, State.setStatus_staged]
@[simp] theorem State.raise_cfg (s : State) (c : Cause) (opc : BitVec 8) : (s.raise c opc).cfg = s.cfg := by rw [State.raise_eq, State.setStatus_cfg]
@[simp] theorem State.raise_inBuf (s : State) (c : Cause) (opc : BitVec 8) : (s.raise c opc).inBuf = s.inBuf := by rw [State.raise_eq, State.setStatus_inBuf]
@[simp] theorem State.raise_workBuf (s : State) (c : Cause) (opc : BitVec 8) : (s.raise c opc).workBuf = s.workBuf := by rw [State.raise_eq, State.setStatus_workBuf]
@[simp] theorem State.raise_outBuf (s : State) (c : Cause) (opc : BitVec 8) : (s.raise c opc).outBuf = s.outBuf := by rw [State.raise_eq, State.setStatus_outBuf]
@[simp] theorem State.raise_epoch (s : State) (c : Cause) (opc : BitVec 8) : (s.raise c opc).epoch = s.epoch := by rw [State.raise_eq, State.setStatus_epoch]
@[simp] theorem State.raise_host (s : State) (c : Cause) (opc : BitVec 8) : (s.raise c opc).host = s.host := by rw [State.raise_eq, State.setStatus_host]
@[simp] theorem State.raise_replies (s : State) (c : Cause) (opc : BitVec 8) : (s.raise c opc).replies = s.replies := by rw [State.raise_eq, State.setStatus_replies]

/-! ### `resetBlock`: the fields reset does not take from `resetWith` (R900) -/

@[simp] theorem State.resetBlock_params (s : State) : s.resetBlock.params = s.params := rfl
@[simp] theorem State.resetBlock_epoch (s : State) : s.resetBlock.epoch = s.epoch + 1 := rfl
@[simp] theorem State.resetBlock_host (s : State) : s.resetBlock.host = s.host := rfl
@[simp] theorem State.resetBlock_replies (s : State) : s.resetBlock.replies = s.replies := rfl
@[simp] theorem State.resetBlock_status (s : State) : s.resetBlock.status = (State.resetWith s.params).status := rfl
@[simp] theorem State.resetBlock_width (s : State) : s.resetBlock.width = (State.resetWith s.params).width := rfl
@[simp] theorem State.resetBlock_height (s : State) : s.resetBlock.height = (State.resetWith s.params).height := rfl
@[simp] theorem State.resetBlock_inLen (s : State) : s.resetBlock.inLen = (State.resetWith s.params).inLen := rfl
@[simp] theorem State.resetBlock_workLen (s : State) : s.resetBlock.workLen = (State.resetWith s.params).workLen := rfl
@[simp] theorem State.resetBlock_outLen (s : State) : s.resetBlock.outLen = (State.resetWith s.params).outLen := rfl
@[simp] theorem State.resetBlock_posX (s : State) : s.resetBlock.posX = (State.resetWith s.params).posX := rfl
@[simp] theorem State.resetBlock_posY (s : State) : s.resetBlock.posY = (State.resetWith s.params).posY := rfl
@[simp] theorem State.resetBlock_pixOrig (s : State) : s.resetBlock.pixOrig = (State.resetWith s.params).pixOrig := rfl
@[simp] theorem State.resetBlock_pixQuant (s : State) : s.resetBlock.pixQuant = (State.resetWith s.params).pixQuant := rfl
@[simp] theorem State.resetBlock_clampNum (s : State) : s.resetBlock.clampNum = (State.resetWith s.params).clampNum := rfl
@[simp] theorem State.resetBlock_clampDen (s : State) : s.resetBlock.clampDen = (State.resetWith s.params).clampDen := rfl
@[simp] theorem State.resetBlock_clampOut (s : State) : s.resetBlock.clampOut = (State.resetWith s.params).clampOut := rfl
@[simp] theorem State.resetBlock_staged (s : State) : s.resetBlock.staged = (State.resetWith s.params).staged := rfl
@[simp] theorem State.resetBlock_cfg (s : State) : s.resetBlock.cfg = (State.resetWith s.params).cfg := rfl
@[simp] theorem State.resetBlock_inBuf (s : State) : s.resetBlock.inBuf = (State.resetWith s.params).inBuf := rfl
@[simp] theorem State.resetBlock_workBuf (s : State) : s.resetBlock.workBuf = (State.resetWith s.params).workBuf := rfl
@[simp] theorem State.resetBlock_outBuf (s : State) : s.resetBlock.outBuf = (State.resetWith s.params).outBuf := rfl

/-! ### The buffers through the updates -/

theorem State.buf_input (s : State) : s.buf .input = s.inBuf := rfl
theorem State.buf_work (s : State) : s.buf .work = s.workBuf := rfl
theorem State.buf_output (s : State) : s.buf .output = s.outBuf := rfl

@[simp] theorem State.setBuf_buf_same (s : State) (b : Buf) (m : Memory) : (s.setBuf b m).buf b = m := by
  cases b <;> rfl

/-- The buffers never alias (R222). -/
theorem State.setBuf_buf_other (s : State) (b c : Buf) (m : Memory) (h : c ≠ b) : (s.setBuf b m).buf c = s.buf c := by
  cases b <;> cases c <;> first | rfl | exact absurd rfl h

@[simp] theorem State.setStatus_buf (s : State) (v : Word) (b : Buf) : (s.setStatus v).buf b = s.buf b := by cases b <;> rfl
@[simp] theorem State.setWorkLen_buf (s : State) (v : Word) (b : Buf) : (s.setWorkLen v).buf b = s.buf b := by cases b <;> rfl
@[simp] theorem State.setOutLen_buf (s : State) (v : Word) (b : Buf) : (s.setOutLen v).buf b = s.buf b := by cases b <;> rfl
@[simp] theorem State.setPixQuant_buf (s : State) (v : Word) (b : Buf) : (s.setPixQuant v).buf b = s.buf b := by cases b <;> rfl
@[simp] theorem State.setClampOut_buf (s : State) (v : Word) (b : Buf) : (s.setClampOut v).buf b = s.buf b := by cases b <;> rfl
@[simp] theorem State.setStaged_buf (s : State) (v : Staged) (b : Buf) : (s.setStaged v).buf b = s.buf b := by cases b <;> rfl
@[simp] theorem State.setCfg_buf (s : State) (v : Configuration) (b : Buf) : (s.setCfg v).buf b = s.buf b := by cases b <;> rfl
@[simp] theorem State.setHost_buf (s : State) (v : List HostAction) (b : Buf) : (s.setHost v).buf b = s.buf b := by cases b <;> rfl
@[simp] theorem State.reply_buf (s : State) (r : HostReply) (b : Buf) : (s.reply r).buf b = s.buf b := by cases b <;> rfl
@[simp] theorem State.raise_buf (s : State) (c : Cause) (opc : BitVec 8) (b : Buf) : (s.raise c opc).buf b = s.buf b := by cases b <;> simp [State.buf]

@[simp] theorem State.setStatus_readByte (s : State) (v : Word) (b : Buf) (i : Nat) : (s.setStatus v).readByte b i = s.readByte b i := by simp [State.readByte]
@[simp] theorem State.setWorkLen_readByte (s : State) (v : Word) (b : Buf) (i : Nat) : (s.setWorkLen v).readByte b i = s.readByte b i := by simp [State.readByte]
@[simp] theorem State.setOutLen_readByte (s : State) (v : Word) (b : Buf) (i : Nat) : (s.setOutLen v).readByte b i = s.readByte b i := by simp [State.readByte]
@[simp] theorem State.setPixQuant_readByte (s : State) (v : Word) (b : Buf) (i : Nat) : (s.setPixQuant v).readByte b i = s.readByte b i := by simp [State.readByte]
@[simp] theorem State.setClampOut_readByte (s : State) (v : Word) (b : Buf) (i : Nat) : (s.setClampOut v).readByte b i = s.readByte b i := by simp [State.readByte]
@[simp] theorem State.setStaged_readByte (s : State) (v : Staged) (b : Buf) (i : Nat) : (s.setStaged v).readByte b i = s.readByte b i := by simp [State.readByte]
@[simp] theorem State.setCfg_readByte (s : State) (v : Configuration) (b : Buf) (i : Nat) : (s.setCfg v).readByte b i = s.readByte b i := by simp [State.readByte]
@[simp] theorem State.setHost_readByte (s : State) (v : List HostAction) (b : Buf) (i : Nat) : (s.setHost v).readByte b i = s.readByte b i := by simp [State.readByte]
@[simp] theorem State.reply_readByte (s : State) (r : HostReply) (b : Buf) (i : Nat) : (s.reply r).readByte b i = s.readByte b i := by simp [State.readByte]
@[simp] theorem State.raise_readByte (s : State) (c : Cause) (opc : BitVec 8) (b : Buf) (i : Nat) : (s.raise c opc).readByte b i = s.readByte b i := by simp [State.readByte]

/-! ### `writeReg`: a store to a register (R706) -/

@[simp] theorem State.writeReg_params (s : State) (r : Reg) (v : Word) : (s.writeReg r v).params = s.params := by cases r <;> rfl
@[simp] theorem State.writeReg_status (s : State) (r : Reg) (v : Word) : (s.writeReg r v).status = s.status := by cases r <;> rfl
@[simp] theorem State.writeReg_workLen (s : State) (r : Reg) (v : Word) : (s.writeReg r v).workLen = s.workLen := by cases r <;> rfl
@[simp] theorem State.writeReg_outLen (s : State) (r : Reg) (v : Word) : (s.writeReg r v).outLen = s.outLen := by cases r <;> rfl
@[simp] theorem State.writeReg_clampOut (s : State) (r : Reg) (v : Word) : (s.writeReg r v).clampOut = s.clampOut := by cases r <;> rfl
@[simp] theorem State.writeReg_cfg (s : State) (r : Reg) (v : Word) : (s.writeReg r v).cfg = s.cfg := by cases r <;> rfl
@[simp] theorem State.writeReg_inBuf (s : State) (r : Reg) (v : Word) : (s.writeReg r v).inBuf = s.inBuf := by cases r <;> rfl
@[simp] theorem State.writeReg_workBuf (s : State) (r : Reg) (v : Word) : (s.writeReg r v).workBuf = s.workBuf := by cases r <;> rfl
@[simp] theorem State.writeReg_outBuf (s : State) (r : Reg) (v : Word) : (s.writeReg r v).outBuf = s.outBuf := by cases r <;> rfl
@[simp] theorem State.writeReg_epoch (s : State) (r : Reg) (v : Word) : (s.writeReg r v).epoch = s.epoch := by cases r <;> rfl
@[simp] theorem State.writeReg_host (s : State) (r : Reg) (v : Word) : (s.writeReg r v).host = s.host := by cases r <;> rfl
@[simp] theorem State.writeReg_replies (s : State) (r : Reg) (v : Word) : (s.writeReg r v).replies = s.replies := by cases r <;> rfl

/-- A store to any register but `S_KW` is read back (R706); `S_KW` needs its offset in range. -/
theorem State.readReg_writeReg (s : State) (r : Reg) (v : Word) (h : accessOf r = .rw)
    (hk : ∀ k, r = .sKw k → k < s.staged.kw.length) : (s.writeReg r v).readReg r = v := by
  cases r <;> first | rfl | exact absurd h (by decide) | skip
  case sKw k => simp [State.writeReg, State.readReg, List.getD, hk k rfl]
  case cfgKw k => exact absurd h (by simp [accessOf])

end Sys2Proof.Machine
end

