-- ==== Sys2Proof/Laws/Memory.lean ====
section
/-! SUPPORT. Byte memory: a read after a write, and the canonical form kept (R213, R222). -/
namespace Sys2Proof.Machine

/-! ## One buffer's bytes -/

@[simp] theorem Memory.lookup_nil (i : Nat) : Memory.lookup [] i = none := rfl

/-- Everything `insert` does to a buffer's contents: the written index holds the byte, every other is as before. -/
theorem Memory.lookup_insert (m : Memory) (i j : Nat) (v : Byte) :
    (Memory.insert m i v).lookup j = if j = i then some v else Memory.lookup m j := by
  induction m with
  | nil =>
    by_cases h : j = i
    · simp [Memory.insert, Memory.lookup, h]
    · simp [Memory.insert, Memory.lookup, h, Ne.symm h]
  | cons c m ih =>
    obtain ⟨a, b⟩ := c
    by_cases h1 : i < a
    · by_cases h : j = i
      · simp [Memory.insert, Memory.lookup, h1, h]
      · simp [Memory.insert, Memory.lookup, h1, h, Ne.symm h]
    · by_cases h2 : i = a
      · subst h2
        by_cases h : j = i
        · simp [Memory.insert, Memory.lookup, h]
        · simp [Memory.insert, Memory.lookup, h, Ne.symm h]
      · simp only [Memory.insert, if_neg h1, if_neg h2, Memory.lookup, ih]
        by_cases h3 : a = j
        · have : ¬ j = i := fun e => h2 (e.symm.trans h3.symm)
          simp [h3, this]
        · simp [h3]

/-- `insert` adds one index to the listed ones. -/
theorem Memory.mem_insert (m : Memory) (i a : Nat) (v : Byte) (h : a ∈ (Memory.insert m i v).map Prod.fst) :
    a = i ∨ a ∈ m.map Prod.fst := by
  induction m with
  | nil => simpa [Memory.insert] using h
  | cons c m ih =>
    obtain ⟨x, y⟩ := c
    simp only [Memory.insert] at h
    split at h
    · simpa using h
    · split at h
      · simp only [List.map_cons, List.mem_cons] at h ⊢
        tauto
      · simp only [List.map_cons, List.mem_cons] at h ⊢
        rcases h with h | h
        · exact .inr (.inl h)
        · exact (ih h).imp_right .inr

/-- `insert` keeps the canonical form. -/
theorem Memory.wf_insert (m : Memory) (i : Nat) (v : Byte) (h : m.wf) : (Memory.insert m i v).wf := by
  induction m with
  | nil => simp [Memory.insert, Memory.wf]
  | cons c m ih =>
    obtain ⟨a, b⟩ := c
    simp only [Memory.wf, List.map_cons, List.pairwise_cons] at h
    simp only [Memory.insert]
    split
    · rename_i h1
      simp only [Memory.wf, List.map_cons, List.pairwise_cons, List.mem_cons]
      exact ⟨fun x hx => hx.elim (fun e => e ▸ h1) fun hx => h1.trans (h.1 x hx), h⟩
    · split
      · rename_i h2
        subst h2
        simpa only [Memory.wf, List.map_cons, List.pairwise_cons] using h
      · rename_i h1 h2
        simp only [Memory.wf, List.map_cons, List.pairwise_cons]
        refine ⟨fun x hx => ?_, ih h.2⟩
        rcases Memory.mem_insert m i x v hx with e | hx
        · omega
        · exact h.1 x hx

/-! ## Buffers of the state -/

/-- A byte read after one byte was written. -/
theorem State.readByte_writeByte (s : State) (b c : Buf) (i j : Nat) (v : Byte) :
    (s.writeByte b i v).readByte c j = if c = b ∧ j = i then v else s.readByte c j := by
  by_cases hb : c = b
  · subst hb
    by_cases hj : j = i
    · simp [State.readByte, State.writeByte, Memory.lookup_insert, hj]
    · simp [State.readByte, State.writeByte, Memory.lookup_insert, hj]
  · simp [State.readByte, State.writeByte, State.setBuf_buf_other s b c _ hb, hb]

/-- A byte read after a run of bytes was written: the one of the run, or as before. -/
theorem State.readByte_writeBytes (s : State) (b c : Buf) (i j : Nat) (vs : List Byte) :
    (s.writeBytes b i vs).readByte c j =
      if c = b ∧ i ≤ j ∧ j < i + vs.length then vs.getD (j - i) 0 else s.readByte c j := by
  induction vs generalizing s i with
  | nil => simp [State.writeBytes, show ¬ (i ≤ j ∧ j < i) by omega]
  | cons v vs ih =>
    simp only [State.writeBytes, ih, State.readByte_writeByte, List.length_cons]
    by_cases hb : c = b
    · simp only [hb, true_and]
      by_cases hj : j = i
      · simp [hj, show ¬ (i + 1 ≤ i) by omega]
      · by_cases h : i + 1 ≤ j ∧ j < i + 1 + vs.length
        · rw [if_pos h, if_pos (by omega), show j - i = (j - (i + 1)) + 1 by omega, List.getD_cons_succ]
        · rw [if_neg h, if_neg hj, if_neg (by omega)]
    · simp [hb]

/-- Whether a byte is listed after a run of bytes was written. -/
theorem State.lookup_writeBytes (s : State) (b c : Buf) (i j : Nat) (vs : List Byte) :
    ((s.writeBytes b i vs).buf c).lookup j =
      if c = b ∧ i ≤ j ∧ j < i + vs.length then some (vs.getD (j - i) 0) else (s.buf c).lookup j := by
  induction vs generalizing s i with
  | nil => simp [State.writeBytes, show ¬ (i ≤ j ∧ j < i) by omega]
  | cons v vs ih =>
    simp only [State.writeBytes, ih, List.length_cons]
    by_cases hb : c = b
    · subst hb
      simp only [State.writeByte, State.setBuf_buf_same, Memory.lookup_insert, true_and]
      by_cases hj : j = i
      · simp [hj, show ¬ (i + 1 ≤ i) by omega]
      · by_cases h : i + 1 ≤ j ∧ j < i + 1 + vs.length
        · rw [if_pos h, if_pos (by omega), show j - i = (j - (i + 1)) + 1 by omega, List.getD_cons_succ]
        · rw [if_neg h, if_neg hj, if_neg (by omega)]
    · simp [hb, State.writeByte, State.setBuf_buf_other s b c _ hb]

/-- `writeByte` keeps every buffer canonical. -/
theorem State.writeByte_wf (s : State) (b c : Buf) (i : Nat) (v : Byte) (h : (s.buf c).wf) :
    ((s.writeByte b i v).buf c).wf := by
  by_cases hb : c = b
  · subst hb; simpa [State.writeByte] using Memory.wf_insert _ i v h
  · simpa [State.writeByte, State.setBuf_buf_other s b c _ hb] using h

/-- `writeBytes` keeps every buffer canonical. -/
theorem State.writeBytes_wf (s : State) (b c : Buf) (i : Nat) (vs : List Byte) (h : (s.buf c).wf) :
    ((s.writeBytes b i vs).buf c).wf := by
  induction vs generalizing s i with
  | nil => exact h
  | cons v vs ih => exact ih _ _ (State.writeByte_wf s b c i v h)

/-- A write to one buffer leaves the others' contents alone (R222). -/
theorem State.writeBytes_buf_other (s : State) (b c : Buf) (i : Nat) (vs : List Byte) (h : c ≠ b) :
    (s.writeBytes b i vs).buf c = s.buf c := by
  induction vs generalizing s i with
  | nil => rfl
  | cons v vs ih => exact (ih _ _).trans (State.setBuf_buf_other s b c _ h)

/-- Every buffer of a reset block is canonical: it lists nothing. -/
theorem State.resetWith_wf (p : Params) (b : Buf) : ((State.resetWith p).buf b).wf := by
  cases b <;> exact List.Pairwise.nil

@[simp] theorem State.readBytes_length (s : State) (b : Buf) (i n : Nat) : (s.readBytes b i n).length = n := by
  simp [State.readBytes]

theorem State.readBytes_getD (s : State) (b : Buf) (i n k : Nat) (h : k < n) :
    (s.readBytes b i n).getD k 0 = s.readByte b (i + k) := by
  simp [State.readBytes, List.getD, h]

end Sys2Proof.Machine
end

