-- ==== Sys2Proof/Laws/Ops.lean ====
section
/-! SUPPORT. The shared operations: the loop, the kernel arrays, a command's checks, fault entry, reset. -/
namespace Sys2Proof.Machine

/-! ## The loop of R26 -/

@[simp] theorem forRange_zero {α : Type} (f : Nat → α → α) (a : α) : forRange 0 f a = a := rfl

@[simp] theorem forRange_succ {α : Type} (n : Nat) (f : Nat → α → α) (a : α) :
    forRange (n + 1) f a = f n (forRange n f a) := rfl

/-- What every turn keeps, and the start has, the loop has at its end. -/
theorem forRange_keeps {α : Type} (P : α → Prop) (n : Nat) (f : Nat → α → α) (a : α) (h0 : P a)
    (hs : ∀ k, k < n → ∀ x, P x → P (f k x)) : P (forRange n f a) := by
  induction n with
  | zero => exact h0
  | succ n ih => exact hs n (Nat.lt_succ_self n) _ (ih fun k hk => hs k (Nat.lt_succ_of_lt hk))

/-- An invariant that counts the turns: it holds of 0 at the start and of `n` at the end. -/
theorem forRange_counts {α : Type} (P : Nat → α → Prop) (n : Nat) (f : Nat → α → α) (a : α) (h0 : P 0 a)
    (hs : ∀ k, k < n → ∀ x, P k x → P (k + 1) (f k x)) : P n (forRange n f a) := by
  induction n with
  | zero => exact h0
  | succ n ih => exact hs n (Nat.lt_succ_self n) _ (ih fun k hk => hs k (Nat.lt_succ_of_lt hk))

/-- Two loops over the same range stay related when every turn keeps the relation. -/
theorem forRange_rel {α β : Type} (P : α → β → Prop) (n : Nat) (f : Nat → α → α) (g : Nat → β → β) (a : α) (b : β)
    (h0 : P a b) (hs : ∀ k, k < n → ∀ x y, P x y → P (f k x) (g k y)) : P (forRange n f a) (forRange n g b) := by
  induction n with
  | zero => exact h0
  | succ n ih => exact hs n (Nat.lt_succ_self n) _ _ (ih fun k hk => hs k (Nat.lt_succ_of_lt hk))

/-! ## Kernel arrays -/

@[simp] theorem tabulateCells_length (p : Params) (f : Nat → Nat → Word) :
    (tabulateCells p f).length = p.kernelCells := by simp [tabulateCells]

/-- An array's cell is the value it was made from (R122, R128). -/
theorem cellAt_tabulateCells (p : Params) (f : Nat → Nat → Word) (r c : Nat) (hr : r < p.kmaxRows)
    (hc : c < p.kmaxCols) : cellAt p (tabulateCells p f) r c = f r c := by
  have hlt : cellOffset p r c < p.kernelCells := by
    have : (r + 1) * p.kmaxCols ≤ p.kmaxRows * p.kmaxCols := Nat.mul_le_mul_right _ hr
    simp only [cellOffset, Params.kernelCells]
    rw [Nat.add_mul] at this
    omega
  have hd : cellOffset p r c / p.kmaxCols = r := by
    rw [cellOffset, Nat.mul_comm, Nat.mul_add_div (by omega), Nat.div_eq_of_lt hc, Nat.add_zero]
  have hm : cellOffset p r c % p.kmaxCols = c := by
    rw [cellOffset, Nat.mul_comm, Nat.mul_add_mod, Nat.mod_eq_of_lt hc]
  simp [cellAt, tabulateCells, List.getD, hlt, hd, hm]

/-! ## Commands, faults, reset -/

/-- A failed check, if any, is the first of the list. -/
theorem firstCause_cons (bad : Bool) (c : Cause) (rest : List (Bool × Cause)) :
    firstCause ((bad, c) :: rest) = if bad then some c else firstCause rest := rfl

/-- The cause a list of checks raises is one it names, and its check failed. -/
theorem firstCause_mem (l : List (Bool × Cause)) (c : Cause) (h : firstCause l = some c) : (true, c) ∈ l := by
  induction l with
  | nil => exact absurd h (by simp [firstCause])
  | cons x l ih =>
    obtain ⟨bad, d⟩ := x
    cases bad
    · exact List.mem_cons_of_mem _ (ih (by simpa [firstCause] using h))
    · simp only [firstCause, if_true, Option.some.injEq] at h
      simp [h]

/-- No check fails exactly when each is `false`. -/
theorem firstCause_none (l : List (Bool × Cause)) : firstCause l = none ↔ ∀ x ∈ l, x.1 = false := by
  induction l with
  | nil => simp [firstCause]
  | cons x l ih =>
    obtain ⟨bad, d⟩ := x
    cases bad <;> simp [firstCause, ih]

/-- Everything a command can do: raise the first of its failed checks and nothing else, or, with none failed, take
its effect (R25, R810, R812). -/
theorem State.runCommand_cases (s t : State) (i : Instr) (checks : List (Bool × Cause)) (effect : State)
    (h : s.runCommand i checks effect = .next t) :
    (∃ c, firstCause checks = some c ∧ t = s.raise c (opcodeOf i)) ∨ (firstCause checks = none ∧ t = effect) := by
  unfold State.runCommand at h
  split at h
  · rename_i c hc
    exact .inl ⟨c, hc, (Host.Outcome.next.inj h).symm⟩
  · rename_i hc
    exact .inr ⟨hc, (Host.Outcome.next.inj h).symm⟩

/-- A command always answers a next state (R815: none is stuck). -/
theorem State.runCommand_next (s : State) (i : Instr) (checks : List (Bool × Cause)) (effect : State) :
    ∃ t, s.runCommand i checks effect = .next t := by
  unfold State.runCommand
  split <;> exact ⟨_, rfl⟩

theorem State.runCommand_pass (s : State) (i : Instr) (checks : List (Bool × Cause)) (effect : State)
    (h : firstCause checks = none) : s.runCommand i checks effect = .next effect := by
  simp [State.runCommand, h]

theorem State.runCommand_fail (s : State) (i : Instr) (checks : List (Bool × Cause)) (effect : State) (c : Cause)
    (h : firstCause checks = some c) : s.runCommand i checks effect = .next (s.raise c (opcodeOf i)) := by
  simp [State.runCommand, h]

/-- Everything fault entry can do (R811). -/
theorem State.raise_cases (s : State) (c : Cause) (opc : BitVec 8) :
    (s.faulted = true ∧ s.raise c opc = s) ∨
      (s.faulted = false ∧ s.raise c opc = s.setStatus (faultStatus c opc)) := by
  unfold State.raise
  cases h : s.faulted <;> simp

/-- Reset makes a block of the same parameters whose registers are those of `resetWith` (R900). -/
theorem State.resetBlock_eq (s : State) :
    s.resetBlock = { State.resetWith s.params with epoch := s.epoch + 1, host := s.host, replies := s.replies } := rfl

end Sys2Proof.Machine
end

