-- ==== Sys2Proof/Laws/Clamp.lean ====
section
/-! SUPPORT. The ByteClamper's range (R401), and what it leaves alone. -/
namespace Sys2Proof.Machine

/-- For a value up to `m` the rounding stays up to `m`. -/
theorem roundTie_le (t : RoundTie) (n d m : Nat) (hd : 0 < d) (h : n ≤ m * d) : roundTie t n d ≤ m := by
  have hdiv : n / d ≤ m := Nat.div_le_of_le_mul (by rwa [Nat.mul_comm])
  have hcarry : 0 < n % d → n / d + 1 ≤ m := fun hr => by
    have h1 : d * (n / d) + n % d = n := Nat.div_add_mod n d
    by_contra hc
    have h2 : m ≤ n / d := by omega
    have h3 : d * m ≤ d * (n / d) := Nat.mul_le_mul_left d h2
    have h4 : d * m = m * d := Nat.mul_comm d m
    omega
  unfold roundTie
  split
  · exact hdiv
  · split
    · exact hcarry (by omega)
    · cases t
      · exact hcarry (by omega)
      · simp only
        split
        · exact hdiv
        · exact hcarry (by omega)

/-- The clamp's result is in [0, 255] (R401). -/
theorem clampRatio_le (t : RoundTie) (num : Int) (den : Nat) (hd : 0 < den) : clampRatio t num den ≤ 255 := by
  unfold clampRatio
  split
  · exact Nat.le_refl _
  · split
    · exact Nat.zero_le _
    · exact roundTie_le t _ _ _ hd (by omega)

end Sys2Proof.Machine
end

