-- ==== Sys2Proof/Laws/Buffers.lean ====
section
/-! SUPPORT. What the procedures of R27 can do: the diffuser and the dither pass write `WORK` below the image's length and
nothing else, the packer `OUT` below the packed length and nothing else. -/
namespace Sys2Proof.Machine

/-- `t` is `s` but for the bytes of one buffer below index `n`: the buffer is still canonical if it was, its bytes from
`n` on are as they were, and a written byte stays written. -/
def OnlyBuf (b : Buf) (n : Nat) (s t : State) : Prop :=
  ∃ m, t = s.setBuf b m ∧ ((s.buf b).wf → m.wf) ∧ (∀ i, n ≤ i → m.lookup i = (s.buf b).lookup i) ∧
    ∀ i, ((s.buf b).lookup i).isSome → (m.lookup i).isSome

theorem OnlyBuf.refl (b : Buf) (n : Nat) (s : State) : OnlyBuf b n s s :=
  ⟨s.buf b, by cases b <;> rfl, id, fun _ _ => rfl, fun _ h => h⟩

theorem OnlyBuf.trans {b : Buf} {n : Nat} {s t u : State} (h : OnlyBuf b n s t) (k : OnlyBuf b n t u) :
    OnlyBuf b n s u := by
  obtain ⟨m, rfl, h1, h2, h3⟩ := h
  obtain ⟨m', rfl, k1, k2, k3⟩ := k
  simp only [State.setBuf_buf_same] at k1 k2 k3
  exact ⟨m', by cases b <;> rfl, fun h => k1 (h1 h), fun i hi => (k2 i hi).trans (h2 i hi), fun i hi => k3 i (h3 i hi)⟩

theorem OnlyBuf.writeByte (b : Buf) (n : Nat) (s : State) (i : Nat) (v : Byte) (h : i < n) :
    OnlyBuf b n s (s.writeByte b i v) := by
  refine ⟨_, rfl, Memory.wf_insert _ i v, fun j hj => ?_, fun j hj => ?_⟩
  · rw [Memory.lookup_insert, if_neg (by omega)]
  · rw [Memory.lookup_insert]
    split
    · rfl
    · exact hj

theorem OnlyBuf.writeBytes (b : Buf) (n : Nat) (s : State) (i : Nat) (vs : List Byte) (h : i + vs.length ≤ n) :
    OnlyBuf b n s (s.writeBytes b i vs) := by
  induction vs generalizing s i with
  | nil => exact OnlyBuf.refl b n s
  | cons v vs ih =>
    rw [List.length_cons] at h
    exact (OnlyBuf.writeByte b n s i v (by omega)).trans (ih _ _ (by omega))

theorem OnlyBuf.forRange (b : Buf) (n k : Nat) (f : Nat → State → State) (s : State)
    (h : ∀ j, j < k → ∀ x, OnlyBuf b n x (f j x)) : OnlyBuf b n s (forRange k f s) :=
  forRange_keeps (OnlyBuf b n s) k f s (OnlyBuf.refl b n s) fun j hj x hx => hx.trans (h j hj x)

/-! ## Reads through `OnlyBuf` -/

/-- A buffer the procedure does not own, and its own from index `n` on, read as before. -/
theorem OnlyBuf.readByte {b c : Buf} {n : Nat} {s t : State} (h : OnlyBuf b n s t) (i : Nat) (hc : c ≠ b ∨ n ≤ i) :
    t.readByte c i = s.readByte c i := by
  obtain ⟨m, rfl, -, h2, -⟩ := h
  by_cases e : c = b
  · subst e
    simp [State.readByte, h2 i (hc.resolve_left (fun f => f rfl))]
  · simp [State.readByte, State.setBuf_buf_other s b c m e]

/-- The configuration, which the procedures read and never write (R130). -/
theorem OnlyBuf.cfg {b : Buf} {n : Nat} {s t : State} (h : OnlyBuf b n s t) : t.cfg = s.cfg := by
  obtain ⟨m, rfl, -⟩ := h; simp

theorem OnlyBuf.params {b : Buf} {n : Nat} {s t : State} (h : OnlyBuf b n s t) : t.params = s.params := by
  obtain ⟨m, rfl, -⟩ := h; simp

theorem OnlyBuf.epoch {b : Buf} {n : Nat} {s t : State} (h : OnlyBuf b n s t) : t.epoch = s.epoch := by
  obtain ⟨m, rfl, -⟩ := h; simp

/-! ## The diffuser and the dither pass -/

/-- A pixel of the image lies below the image's length (R204). -/
theorem pixelIndex_bound (w h x y : Nat) (hx : x < w) (hy : y < h) : pixelIndex w x y + 4 ≤ 4 * w * h := by
  have h1 : (y + 1) * w ≤ h * w := Nat.mul_le_mul_right w hy
  have h2 : (y + 1) * w = y * w + w := Nat.succ_mul y w
  have h3 : 4 * w * h = 4 * (h * w) := by rw [Nat.mul_assoc, Nat.mul_comm w h]
  rw [pixelIndex, h3]
  omega

theorem State.diffuseCell_onlyWork (s : State) (o q : Pixel) (x y w h r c : Nat) :
    OnlyBuf .work (4 * w * h) s (s.diffuseCell o q x y w h r c) := by
  simp only [State.diffuseCell]
  split
  · exact OnlyBuf.refl _ _ _
  · rename_i hs
    rw [Bool.not_eq_true, skipCell, decide_eq_false_iff_not] at hs
    have := pixelIndex_bound w h (s.targetCol x c).toNat (targetRow y r).toNat (by omega) (by omega)
    exact OnlyBuf.writeBytes _ _ _ _ _ (by simp only [List.length_cons, List.length_nil]; omega)

theorem State.diffuse_onlyWork (s : State) (o q : Pixel) (x y w h : Nat) :
    OnlyBuf .work (4 * w * h) s (s.diffuse o q x y w h) :=
  OnlyBuf.forRange _ _ _ _ _ fun r _ _ => OnlyBuf.forRange _ _ _ _ _ fun c _ b => b.diffuseCell_onlyWork o q x y w h r c

theorem State.copyImage_onlyWork (s : State) (n : Nat) : OnlyBuf .work n s (s.copyImage n) :=
  OnlyBuf.writeBytes _ _ _ _ _ (by simp)

/-- The copy's bytes: those of `IN` below its length (R557, R600). -/
theorem State.copyImage_readByte (s : State) (n j : Nat) :
    (s.copyImage n).readByte .work j = if j < n then s.readByte .input j else s.readByte .work j := by
  rw [State.copyImage, State.readByte_writeBytes]
  by_cases h : j < n
  · rw [if_pos ⟨rfl, Nat.zero_le j, by simpa using h⟩, if_pos h, Nat.sub_zero, State.readBytes_getD _ _ _ _ _ h,
      Nat.zero_add]
  · rw [if_neg h, if_neg (fun k => h (by simpa using k.2.2))]

/-- After the copy every byte of the image is written. -/
theorem State.copyImage_written (s : State) (n j : Nat) (h : j < n) :
    ((s.copyImage n).workBuf.lookup j).isSome := by
  have := s.lookup_writeBytes .work .work 0 j (s.readBytes .input 0 n)
  rw [if_pos ⟨rfl, Nat.zero_le j, by simpa using h⟩] at this
  exact Option.isSome_iff_exists.mpr ⟨_, this⟩

theorem State.ditherStep_onlyWork (s : State) (w h x y : Nat) (hx : x < w) (hy : y < h) :
    OnlyBuf .work (4 * w * h) s (s.ditherStep w h x y) :=
  (s.diffuse_onlyWork _ _ x y w h).trans
    (OnlyBuf.writeBytes _ _ _ _ _ (by simpa [pixelBytes] using pixelIndex_bound w h x y hx hy))

theorem State.ditherPass_onlyWork (s : State) (w h : Nat) : OnlyBuf .work (4 * w * h) s (s.ditherPass w h) :=
  OnlyBuf.forRange _ _ _ _ _ fun y hy _ => OnlyBuf.forRange _ _ _ _ _ fun x hx b => b.ditherStep_onlyWork w h x y hx hy

theorem State.dither_onlyWork (s : State) (w h : Nat) : OnlyBuf .work (4 * w * h) s (s.dither w h) :=
  (s.copyImage_onlyWork _).trans (State.ditherPass_onlyWork _ w h)

/-- Everything one cell's update does to the bytes: none when the cell is skipped (R552), else the target's R, G and B
bytes and no other (R553). -/
theorem State.diffuseCell_readByte (s : State) (o q : Pixel) (x y w h r c : Nat) (b : Buf) (j : Nat) :
    (s.diffuseCell o q x y w h r c).readByte b j =
      let i := pixelIndex w (s.targetCol x c).toNat (targetRow y r).toNat
      if skipCell (s.weight r c) (s.targetCol x c) (targetRow y r) w h = false ∧ b = .work ∧ i ≤ j ∧ j < i + 3 then
        diffusedByte s.params.roundTie s.divisor (s.readByte .work j)
          (if j = i then channelError o.R q.R else if j = i + 1 then channelError o.G q.G else channelError o.B q.B)
          (s.weight r c)
      else s.readByte b j := by
  simp only [State.diffuseCell]
  cases hs : skipCell (s.weight r c) (s.targetCol x c) (targetRow y r) w h
  · simp only [Bool.false_eq_true, if_false, true_and, State.readByte_writeBytes, List.length_cons, List.length_nil,
      State.readPixel]
    generalize pixelIndex w (s.targetCol x c).toNat (targetRow y r).toNat = i at *
    by_cases hj : b = .work ∧ i ≤ j ∧ j < i + 3
    · rw [if_pos hj, if_pos hj]
      obtain ⟨-, h1, h2⟩ := hj
      have : j = i ∨ j = i + 1 ∨ j = i + 2 := by omega
      rcases this with rfl | rfl | rfl <;> simp
    · rw [if_neg hj, if_neg hj]
  · simp

/-! ## The packer -/

/-- Inside a row of the packer: the bits taken so far are `8 · k + nb`, fewer than eight of them waiting. -/
def PackCount (x : Nat) (t : PackRow) : Prop := 8 * t.k + t.nb = x ∧ t.nb < 8

theorem packPixel_count (src : Buf) (w y x : Nat) (t : PackRow) (h : PackCount x t) :
    PackCount (x + 1) (packPixel src w y x t) := by
  obtain ⟨h1, h2⟩ := h
  simp only [packPixel, PackCount]
  split
  · exact ⟨by simp only; omega, by simp only; omega⟩
  · exact ⟨by simp only; omega, by simp only; omega⟩

/-- Byte `k` of row `y` lies below the packed length (R205, R653). -/
theorem packedIndex_bound (w h y k : Nat) (hy : y < h) (hk : k < bytesPerRow w) :
    y * bytesPerRow w + k < bytesPerRow w * h := by
  have h1 : (y + 1) * bytesPerRow w ≤ h * bytesPerRow w := Nat.mul_le_mul_right _ hy
  have h2 : (y + 1) * bytesPerRow w = y * bytesPerRow w + bytesPerRow w := Nat.succ_mul _ _
  have h3 : bytesPerRow w * h = h * bytesPerRow w := Nat.mul_comm _ _
  omega

theorem packPixel_onlyOut (src : Buf) (w h y x : Nat) (hy : y < h) (hx : x < w) (t : PackRow) (hc : PackCount x t) :
    OnlyBuf .output (bytesPerRow w * h) t.st (packPixel src w y x t).st := by
  obtain ⟨h1, h2⟩ := hc
  simp only [packPixel]
  split
  · exact OnlyBuf.writeByte _ _ _ _ _ (packedIndex_bound w h y t.k hy (by rw [bytesPerRow]; omega))
  · exact OnlyBuf.refl _ _ _

theorem packRow_onlyOut (src : Buf) (w h y : Nat) (hy : y < h) (s : State) :
    OnlyBuf .output (bytesPerRow w * h) s (packRow src w y s) := by
  obtain ⟨hrow, hc, hnb⟩ :=
    forRange_counts (fun x (t : PackRow) => OnlyBuf .output (bytesPerRow w * h) s t.st ∧ PackCount x t) w
      (packPixel src w y) { st := s, acc := 0, nb := 0, k := 0 } ⟨OnlyBuf.refl _ _ _, rfl, Nat.succ_pos 7⟩
      fun x hx t ht => ⟨ht.1.trans (packPixel_onlyOut src w h y x hy hx t ht.2), packPixel_count src w y x t ht.2⟩
  refine hrow.trans ?_
  simp only [packRow, flushRow]
  split
  · exact OnlyBuf.writeByte _ _ _ _ _ (packedIndex_bound w h y _ hy (by rw [bytesPerRow]; omega))
  · exact OnlyBuf.refl _ _ _

theorem State.packImage_onlyOut (s : State) (src : Buf) (w h : Nat) :
    OnlyBuf .output (bytesPerRow w * h) s (s.packImage src w h) :=
  OnlyBuf.forRange _ _ _ _ _ fun y hy a => packRow_onlyOut src w h y hy a

/-- A byte of `OUT` once written stays written. -/
theorem OnlyBuf.written {b : Buf} {n : Nat} {s t : State} (h : OnlyBuf b n s t) (i : Nat)
    (hi : ((s.buf b).lookup i).isSome) : ((t.buf b).lookup i).isSome := by
  obtain ⟨m, rfl, -, -, h3⟩ := h
  simpa using h3 i hi

/-- `writeByte` writes its byte. -/
theorem State.writeByte_written (s : State) (b : Buf) (i : Nat) (v : Byte) :
    (((s.writeByte b i v).buf b).lookup i).isSome := by
  simp [State.writeByte, Memory.lookup_insert]

/-- A row of the packer writes each of its bytes (R652, R653). -/
theorem packRow_written (src : Buf) (w h y k : Nat) (hy : y < h) (hk : k < bytesPerRow w) (s : State) :
    ((packRow src w y s).outBuf.lookup (y * bytesPerRow w + k)).isSome := by
  obtain ⟨hw, hc, hnb⟩ :=
    forRange_counts
      (fun x (t : PackRow) =>
        (∀ j, j < t.k → (t.st.outBuf.lookup (y * bytesPerRow w + j)).isSome) ∧ PackCount x t)
      w (packPixel src w y) { st := s, acc := 0, nb := 0, k := 0 }
      ⟨fun j hj => absurd hj (Nat.not_lt_zero j), rfl, Nat.succ_pos 7⟩
      fun x hx t ht => ⟨fun j hj => by
        have hkeep := (packPixel_onlyOut src w h y x hy hx t ht.2).written (y * bytesPerRow w + j)
        simp only [State.buf_output] at hkeep
        by_cases hjk : j < t.k
        · exact hkeep (ht.1 j hjk)
        · simp only [packPixel] at hj ⊢
          split at hj
          · rename_i h8
            rw [if_pos h8]
            have : j = t.k := by simp only at hj; omega
            subst this
            exact State.writeByte_written _ .output _ _
          · exact absurd hj hjk, packPixel_count src w y x t ht.2⟩
  simp only [packRow, flushRow]
  generalize forRange w (packPixel src w y) { st := s, acc := 0, nb := 0, k := 0 } = t at hw hc hnb ⊢
  by_cases hlt : k < t.k
  · split
    · exact (OnlyBuf.writeByte .output (y * bytesPerRow w + t.k + 1) t.st _ _ (Nat.lt_succ_self _)).written _ (hw k hlt)
    · exact hw k hlt
  · rw [bytesPerRow] at hk
    have : t.k = k ∧ 0 < t.nb := by omega
    rw [if_pos this.2, this.1]
    exact State.writeByte_written _ .output _ _

/-- The packer writes every byte of the packed output (R653). -/
theorem State.packImage_written (s : State) (src : Buf) (w h j : Nat) (hj : j < bytesPerRow w * h) :
    ((s.packImage src w h).outBuf.lookup j).isSome := by
  have key := forRange_counts
    (fun n (t : State) => ∀ y k, y < n → k < bytesPerRow w → (t.outBuf.lookup (y * bytesPerRow w + k)).isSome)
    h (packRow src w) s (fun y _ hy => absurd hy (Nat.not_lt_zero y))
    fun n hn t ht y k hy hk => by
      by_cases e : y = n
      · subst e; exact packRow_written src w h y k hn hk t
      · exact (packRow_onlyOut src w h n hn t).written _ (ht y k (by omega) hk)
  have hb : 0 < bytesPerRow w := Nat.pos_of_ne_zero fun e => by simp [e] at hj
  have hd : j / bytesPerRow w < h := (Nat.div_lt_iff_lt_mul hb).mpr (by rwa [Nat.mul_comm])
  have := key (j / bytesPerRow w) (j % bytesPerRow w) hd (Nat.mod_lt _ hb)
  rwa [Nat.mul_comm, Nat.div_add_mod] at this

end Sys2Proof.Machine
end

