-- ==== Sys2Proof/Laws/Checks.lean ====
section
/-! SUPPORT. Every check and test of the model as the proposition it decides, the commands as one `runCommand` each, and
the fields of a fault's `STATUS`. -/
namespace Sys2Proof.Machine

/-! ## Checks -/

/-- The size check passes on a legal size (R803). -/
theorem State.badDimension_eq_false (s : State) :
    s.badDimension = false ↔
      1 ≤ s.imageW ∧ s.imageW ≤ s.params.maxWidth ∧ 1 ≤ s.imageH ∧ s.imageH ≤ s.params.maxHeight := by
  rw [State.badDimension, decide_eq_false_iff_not]; omega

/-- The length check passes on the image's length (R804). -/
theorem State.badLength_eq_false (s : State) (len : Word) :
    s.badLength len = false ↔ len.toNat = 4 * s.imageW * s.imageH := by
  rw [State.badLength, decide_eq_false_iff_not, not_not, State.imageBytes]

/-- The position check passes inside the image (R558). -/
theorem State.badPosition_eq_false (s : State) :
    s.badPosition = false ↔ s.posX.toNat < s.imageW ∧ s.posY.toNat < s.imageH := by
  rw [State.badPosition, decide_eq_false_iff_not]; omega

/-- The shape check passes on counts in range (R805). -/
theorem badKernelShape_eq_false (p : Params) (g : Staged) :
    badKernelShape p g = false ↔ 1 ≤ g.rows ∧ g.rows ≤ p.kmaxRows ∧ 1 ≤ g.cols ∧ g.cols ≤ p.kmaxCols := by
  rw [badKernelShape, decide_eq_false_iff_not]; omega

/-- The search for `c0` finds the first nonzero column, or there is none (R451). -/
theorem firstNonzeroCol_cases (p : Params) (g : Staged) :
    (∃ c0, firstNonzeroCol p g = some c0 ∧ c0 < g.cols ∧ cellAt p g.kw 0 c0 ≠ 0 ∧
        ∀ c, c < c0 → cellAt p g.kw 0 c = 0) ∨
      (firstNonzeroCol p g = none ∧ ∀ c, c < g.cols → cellAt p g.kw 0 c = 0) := by
  cases h : firstNonzeroCol p g with
  | none =>
    refine .inr ⟨rfl, fun c hc => ?_⟩
    simpa using List.find?_eq_none.mp h c (List.mem_range.mpr hc)
  | some c0 =>
    rw [firstNonzeroCol, List.find?_range_eq_some] at h
    exact .inl ⟨c0, rfl, List.mem_range.mp h.2.1, by simpa using h.1, fun c hc => by simpa using h.2.2 c hc⟩

/-! ## Tests inside the procedures -/

/-- The dark predicate (R501). -/
theorem isDark_iff (thr : Nat) (p : Pixel) : isDark thr p = true ↔ lum1000 p < 1000 * thr := by
  rw [isDark, decide_eq_true_iff]

/-- A cell is not skipped when its weight is not 0 and its target is inside the image, off row 0 and column 0 (R552). -/
theorem skipCell_eq_false (wt tc tr : Int) (w h : Nat) :
    skipCell wt tc tr w h = false ↔ wt ≠ 0 ∧ 0 < tc ∧ tc < w ∧ 0 < tr ∧ tr < h := by
  rw [skipCell, decide_eq_false_iff_not]; omega

/-- The thresholder passes alpha through (R503). -/
@[simp] theorem thresholdPixel_alpha (thr : Nat) (p : Pixel) : (thresholdPixel thr p).A = p.A := by
  rw [thresholdPixel]; split <;> rfl

/-- The thresholder's colour channels: all 0 for a dark pixel, all 255 otherwise (R502). -/
theorem thresholdPixel_cases (thr : Nat) (p : Pixel) :
    (isDark thr p = true ∧ thresholdPixel thr p = { R := 0, G := 0, B := 0, A := p.A }) ∨
      (isDark thr p = false ∧ thresholdPixel thr p = { R := 255, G := 255, B := 255, A := p.A }) := by
  rw [thresholdPixel]
  cases isDark thr p
  · exact .inr ⟨rfl, rfl⟩
  · exact .inl ⟨rfl, rfl⟩

/-- A pixel written to a register reads back (R305). -/
@[simp] theorem pixelOfWord_wordOfPixel (p : Pixel) : pixelOfWord (wordOfPixel p) = p := by
  simp [pixelOfWord, wordOfPixel]

/-! ## `STATUS` -/

/-- A fault's word has `FAULT` set (R811). -/
theorem statusFault_faultStatus (c : Cause) (opc : BitVec 8) : statusFault (faultStatus c opc) = true := by
  have h : (faultStatus c opc).toNat % 2 = 1 := by
    rw [faultStatus, joinBytes_toNat]; simp only [BitVec.ofNat_eq_ofNat, BitVec.toNat_ofNat]; omega
  simp [statusFault, BitVec.getLsbD, Nat.testBit_zero, h]

@[simp] theorem statusCause_faultStatus (c : Cause) (opc : BitVec 8) :
    statusCause (faultStatus c opc) = causeCode c := joinBytes_byte1 ..

@[simp] theorem statusFaultOpc_faultStatus (c : Cause) (opc : BitVec 8) :
    statusFaultOpc (faultStatus c opc) = opc := joinBytes_byte2 ..

/-! ## The commands, each as its checks and its effect -/

theorem exec_nop_eq (s : State) : exec .nop s = s.runCommand .nop [] s := rfl

theorem exec_configure_eq (s : State) :
    exec .configure s = s.runCommand .configure
      [ (badKernelShape s.params s.staged, .kernelShape),
        ((firstNonzeroCol s.params s.staged).isNone, .kernelRow0Zero), (s.staged.thrDen == 0, .badOperand) ]
      (s.setCfg (newConfiguration s.params s.staged ((firstNonzeroCol s.params s.staged).getD 0))) := rfl

theorem exec_loadpreset_eq (s : State) (n : Nat) :
    exec (.loadpreset n) s = s.runCommand (.loadpreset n) [(decide (2 ≤ n), .badOperand)]
      (s.setStaged (stagePreset s.params n s.staged)) := rfl

theorem exec_clamp_eq (s : State) :
    exec .clamp s = s.runCommand .clamp [(s.clampDen == 0, .badOperand)]
      (s.setClampOut (BitVec.ofNat 32 (clampRatio s.params.roundTie s.clampNum.toInt s.clampDen.toNat))) := rfl

theorem exec_thresh_eq (s : State) :
    exec .thresh s = s.runCommand .thresh []
      (s.setPixQuant (wordOfPixel (thresholdPixel s.threshold (pixelOfWord s.pixOrig)))) := rfl

theorem exec_loadwork_eq (s : State) :
    exec .loadwork s = s.runCommand .loadwork [(s.badDimension, .badDimension), (s.badLength s.inLen, .badLength)]
      ((s.copyImage s.imageBytes).setWorkLen (BitVec.ofNat 32 s.imageBytes)) := rfl

theorem exec_diffuse_eq (s : State) :
    exec .diffuse s = s.runCommand .diffuse
      [(s.badDimension, .badDimension), (s.badLength s.workLen, .badLength), (s.badPosition, .badOperand)]
      (s.diffuse (pixelOfWord s.pixOrig) (pixelOfWord s.pixQuant) s.posX.toNat s.posY.toNat s.imageW s.imageH) := rfl

theorem exec_dither_eq (s : State) :
    exec .dither s = s.runCommand .dither [(s.badDimension, .badDimension), (s.badLength s.inLen, .badLength)]
      ((s.dither s.imageW s.imageH).setWorkLen (BitVec.ofNat 32 s.imageBytes)) := rfl

theorem exec_pack_eq (s : State) (src : Nat) :
    exec (.pack src) s = s.runCommand (.pack src)
      [ (decide (1 < src), .badOperand), (s.badDimension, .badDimension),
        (s.badLength (s.packLength src), .badLength) ]
      ((s.packImage (packSource src) s.imageW s.imageH).setOutLen (BitVec.ofNat 32 s.packedBytes)) := rfl

theorem exec_raster_eq (s : State) :
    exec .raster s = s.runCommand .raster [(s.badDimension, .badDimension), (s.badLength s.inLen, .badLength)]
      s.raster := rfl

end Sys2Proof.Machine
end

