-- ==== Sys2Proof/Laws/PerInstr.lean ====
section
/-! SUPPORT. The family `Encoding`: the fields of a well-formed command's word (R306 to R309), one lemma per command. -/
namespace Sys2Proof.Laws.Encoding

/-- The word of a well-formed command has its opcode in bits 31:24, zeros in 23:8 and its operand in 7:0. -/
def Statement (i : Instr) : Prop :=
  i.wellFormed = true →
    opcField (encode i) = opcodeOf i ∧ rsvdField (encode i) = 0 ∧ (argField (encode i)).toNat = argOf i

theorem nop : Statement .nop := by unfold Statement; decide
theorem configure : Statement .configure := by unfold Statement; decide

/-- The three fields of a word joined from an opcode, zeros and an operand byte. -/
theorem fields_of_join (o : BitVec 8) (n : Nat) (h : n < 256) :
    opcField (joinBytes o 0 0 (BitVec.ofNat 8 n)) = o ∧ rsvdField (joinBytes o 0 0 (BitVec.ofNat 8 n)) = 0 ∧
      (argField (joinBytes o 0 0 (BitVec.ofNat 8 n))).toNat = n := by
  refine ⟨joinBytes_byte3 .., BitVec.eq_of_toNat_eq ?_, ?_⟩
  · rw [rsvdField, BitVec.extractLsb'_toNat, joinBytes_toNat, Nat.shiftRight_eq_div_pow]
    simp only [BitVec.ofNat_eq_ofNat, BitVec.toNat_ofNat]
    omega
  · rw [argField, joinBytes_byte0, BitVec.toNat_ofNat, Nat.mod_eq_of_lt h]

theorem loadpreset (preset : Nat) : Statement (.loadpreset preset) := fun h =>
  fields_of_join _ preset (by simpa [Instr.wellFormed] using h)

theorem clamp : Statement .clamp := by unfold Statement; decide
theorem thresh : Statement .thresh := by unfold Statement; decide
theorem loadwork : Statement .loadwork := by unfold Statement; decide
theorem diffuse : Statement .diffuse := by unfold Statement; decide
theorem dither : Statement .dither := by unfold Statement; decide

theorem pack (src : Nat) : Statement (.pack src) := fun h =>
  fields_of_join _ src (by simpa [Instr.wellFormed] using h)

theorem raster : Statement .raster := by unfold Statement; decide

end Sys2Proof.Laws.Encoding
end

