-- ==== Sys2Proof/Tests/Slice0.lean ====
section
/-! SUPPORT. The model's own tests: well-formedness, decoding of words written out from R306 and R307, small vectors of
spec/95_test_vectors.md (each named by its id), and a witness for the hypotheses of every statement. -/
namespace Sys2Proof.Tests
open Sys2Proof Sys2Proof.Machine

/-! ## Helpers -/

/-- The state of a next outcome. -/
def nextOf : Host.Outcome State Fault Refusal → Option State
  | .next t => some t
  | .fault _ => none
  | .refused _ => none

/-- The reason of a refusal. -/
def refusalOf : Host.Outcome State Fault Refusal → Option Refusal
  | .next _ => none
  | .fault _ => none
  | .refused r => some r

/-- The command a word decodes to. -/
def decoded (w : Word) : Option Instr :=
  match decode w with
  | .ok i => some i
  | .error _ => none

/-- The bytes of `n` equal pixels. -/
def pixels (n : Nat) (p : List Byte) : List Byte := (List.replicate n p).flatten

/-- A buffer holding these bytes from index 0. -/
def bytesFrom0 (bs : List Byte) : Memory := bs.zipIdx.map fun (v, i) => (i, v)

/-- The state after reset with an image in `IN` and the registers that describe it. -/
def withImage (w h : Word) (bs : List Byte) : State :=
  { State.reset with width := w, height := h, inLen := BitVec.ofNat 32 bs.length, inBuf := bytesFrom0 bs }

/-- The same image in `WORK`, as `LOADWORK` leaves it. -/
def withWork (w h : Word) (bs : List Byte) : State :=
  { withImage w h bs with workLen := BitVec.ofNat 32 bs.length, workBuf := bytesFrom0 bs }

/-- `DIFFUSE`'s operands at (0, 1) on a 3 × 2 image. -/
def diffuseAt01 (p : List Byte) (o q : Word) : State :=
  { withWork 3 2 (pixels 6 p) with posX := 0, posY := 1, pixOrig := o, pixQuant := q }

/-- The valid bytes of `OUT`. -/
def outBytes (s : State) : List Byte := s.readBytes .output 0 s.outLen.toNat

/-- The R channel of each pixel of `WORK`. -/
def workR (s : State) : List Byte := (List.range (s.workLen.toNat / 4)).map fun k => s.readByte .work (4 * k)

/-- The state after reset with one host action to come. -/
def hosting (a : HostAction) : State := { State.reset with host := [a] }

/-- The state after reset with a fault recorded: `RASTER`'s `BAD_LENGTH`, the `STATUS` of P4. -/
def faultedState : State := { State.reset with status := 0x00090301, width := 2, height := 2, inLen := 12 }

/-! ## Well-formedness, encoding, decoding -/

theorem test_wellFormed_refuses_loadpreset_256 : (Instr.loadpreset 256).wellFormed = false := by decide
theorem test_wellFormed_refuses_pack_256 : (Instr.pack 256).wellFormed = false := by decide
theorem test_wellFormed_takes_255 :
    (Instr.loadpreset 255).wellFormed = true ∧ (Instr.pack 255).wellFormed = true := by decide

/-- Each command's word, bit by bit from R306 and R307: eight bits of `OPC`, sixteen zeros, eight bits of `ARG`. -/
theorem test_decode_words :
    decoded 0b00000000000000000000000000000000 = some .nop ∧
    decoded 0b00000001000000000000000000000000 = some .configure ∧
    decoded 0b00000010000000000000000000000001 = some (.loadpreset 1) ∧
    decoded 0b00000011000000000000000000000000 = some .clamp ∧
    decoded 0b00000100000000000000000000000000 = some .thresh ∧
    decoded 0b00000101000000000000000000000000 = some .loadwork ∧
    decoded 0b00000110000000000000000000000000 = some .diffuse ∧
    decoded 0b00000111000000000000000000000000 = some .dither ∧
    decoded 0b00001000000000000000000000000001 = some (.pack 1) ∧
    decoded 0b00001001000000000000000000000000 = some .raster := by decide

/-- NP2 to NP5, LP5, PK14, RS11: the words R308 to R310 refuse. -/
theorem test_decode_refuses :
    decoded 0x00000100 = none ∧ decoded 0x00000001 = none ∧ decoded 0x0A000000 = none ∧ decoded 0xFF000000 = none ∧
    decoded 0x02000102 = none ∧ decoded 0x08010001 = none ∧ decoded 0x09000001 = none := by decide

/-- R314's words. -/
theorem test_encode_words :
    encode (.loadpreset 255) = 0x020000FF ∧ encode (.pack 1) = 0x08000001 ∧ encode .raster = 0x09000000 := by decide

theorem test_decodeTableWord :
    decodeTableWord 32 0x07000000 = some .dither ∧ decodeTableWord 32 0x02000000 = some (.loadpreset 0) := by decide

/-- NP1 and CF1: the words run as the first commands after reset. -/
theorem test_step_runs_first_words :
    nextOf (step (State.reset.withFetchWord 32 0x00000000)) = some State.reset ∧
    nextOf (step (State.reset.withFetchWord 32 0x01000000)) = some State.reset := by decide +kernel

/-! ## The commands -/

/-- NP1. -/
theorem test_nop : nextOf (exec .nop State.reset) = some State.reset := by decide +kernel

/-- CL6: 126.5 under the two tie rules. -/
theorem test_clamp_tie :
    (nextOf (exec .clamp { State.reset with clampNum := 253, clampDen := 2 })).map (·.clampOut) = some 127 ∧
    (nextOf (exec .clamp { State.resetWith { Params.vectors with roundTie := .halfEven } with
      clampNum := 253, clampDen := 2 })).map (·.clampOut) = some 126 := by decide +kernel

/-- CL20: denominator 0. -/
theorem test_clamp_by_zero :
    (nextOf (exec .clamp { State.reset with clampNum := 7, clampDen := 0, clampOut := 9 })).map
      (fun t => (t.status, t.clampOut)) = some (0x00030601, 9) := by decide +kernel

/-- CF2: a divisor of -7 and a threshold of 257/2. -/
theorem test_configure :
    (nextOf (exec .configure { State.reset with staged :=
      { State.reset.staged with div := 0xFFFFFFF9, thrNum := 257, thrDen := 2 } })).map
      (fun t => (t.cfg.div, t.cfg.thr, t.cfg.anchor)) = some (1, 129, 2) := by decide +kernel

/-- CF13 and CF17: a negative weight counts as nonzero; row 0 all zero faults. -/
theorem test_configure_row0 :
    (nextOf (exec .configure { State.reset with staged :=
      { State.reset.staged with krows := 1, kcols := 3, kw := [0, 0, 0xFFFFFFFE] } })).map
      (fun t => (t.status, t.cfg.anchor)) = some (0, 1) ∧
    (nextOf (exec .configure { State.reset with staged :=
      { State.reset.staged with krows := 2, kcols := 2, kw := [0, 0, 0, 0, 0, 0, 0, 0, 1, 1] } })).map
      (fun t => (t.status, t.cfg)) = some (0x00010501, State.reset.cfg) := by decide +kernel

/-- LP2: the Atkinson cells, with the Jarvis-Judice-Ninke cell of column 4 kept. -/
theorem test_loadpreset :
    (nextOf (exec (.loadpreset 1) State.reset)).map
      (fun t => (t.staged.kcols, t.staged.kw.take 5, t.staged.div, t.cfg)) =
      some (4, [0, 0, 1, 1, 5], 48, State.reset.cfg) := by decide +kernel

/-- LP3. -/
theorem test_loadpreset_2 :
    (nextOf (exec (.loadpreset 2) State.reset)).map (·.status) = some 0x00020601 := by decide +kernel

/-- TH1: a luminance equal to the threshold is white. -/
theorem test_thresh_equal :
    (nextOf (exec .thresh { State.reset with pixOrig := 0xFF808080 })).map (·.pixQuant) = some 0xFFFFFFFF := by
  decide +kernel

/-- TH7 and TH4: the three weights, and alpha passed through. -/
theorem test_thresh_weights :
    (nextOf (exec .thresh { State.reset with
      pixOrig := 0x03FFFFFE, cfg := { State.reset.cfg with thr := 255 } })).map (·.pixQuant) = some 0x03000000 ∧
    (nextOf (exec .thresh { State.reset with pixOrig := 0x0700FF00 })).map (·.pixQuant) = some 0x07FFFFFF := by
  decide +kernel

/-- LW2. -/
theorem test_loadwork :
    (nextOf (exec .loadwork (withImage 1 1 [1, 2, 3, 4]))).map (fun t => (t.workBuf, t.workLen)) =
      some (bytesFrom0 [1, 2, 3, 4], 4) := by decide +kernel

/-- LW3. -/
theorem test_loadwork_length :
    (nextOf (exec .loadwork { State.reset with width := 2, height := 2, inLen := 12 })).map
      (fun t => (t.status, t.workLen)) = some (0x00050301, 0) := by decide +kernel

/-- DF3: two ties on a 3 × 2 image. -/
theorem test_diffuse_ties :
    (nextOf (exec .diffuse (diffuseAt01 [101, 101, 101, 255] 0xFF181818 0xFF000000))).map workR =
      some [101, 101, 101, 101, 105, 104] := by decide +kernel

/-- DF7: the channels apart, alpha untouched. -/
theorem test_diffuse_channels :
    (nextOf (exec .diffuse (diffuseAt01 [10, 20, 30, 40] 0x093264C8 0x09000000))).map
      (fun t => t.readBytes .work 16 8) = some [39, 35, 37, 40, 31, 30, 35, 40] := by decide +kernel

/-- DT1: 2 × 2 grey 128. -/
theorem test_dither :
    (nextOf (exec .dither (withImage 2 2 (pixels 4 [128, 128, 128, 255])))).map workR = some [255, 255, 255, 0] := by
  decide +kernel

/-- PK1's first pixels: 3 × 1 of 0, 127 and 128 give the bits 110. -/
theorem test_pack :
    (nextOf (exec (.pack 0) (withImage 3 1 [0, 0, 0, 255, 127, 127, 127, 255, 128, 128, 128, 255]))).map outBytes =
      some [0b11000000] := by decide +kernel

/-- PK12: the `ARG` check comes before the size's. -/
theorem test_pack_2 : (nextOf (exec (.pack 2) State.reset)).map (·.status) = some 0x00080601 := by decide +kernel

/-- DT1 as a `RASTER` vector. -/
theorem test_raster :
    (nextOf (exec .raster (withImage 2 2 (pixels 4 [128, 128, 128, 255])))).map outBytes = some [0x00, 0x40] := by
  decide +kernel

/-- RS10. -/
theorem test_raster_length :
    (nextOf (exec .raster { State.reset with width := 2, height := 2, inLen := 12 })).map
      (fun t => (t.status, t.workLen, t.outLen)) = some (0x00090301, 0, 0) := by decide +kernel

/-! ## The host port -/

/-- HP2, HP5. -/
theorem test_get :
    (nextOf (step (hosting (.get 0x024)))).map (fun t => (t.status, t.replies)) = some (0, [.word 2]) ∧
    (nextOf (step (hosting (.get 0x00E)))).map (fun t => (t.status, t.replies)) = some (0x00FF0701, [.word 0]) := by
  decide +kernel

/-- HP3, HP6, HP7. -/
theorem test_set :
    (nextOf (step (hosting (.set 0x005 5)))).map (fun t => (t.status, t.workLen)) = some (0x00FF0701, 0) ∧
    (nextOf (step (hosting (.set 0x004 16385)))).map (fun t => (t.status, t.inLen)) = some (0x00FF0701, 0) ∧
    (nextOf (step (hosting (.set 0x004 16384)))).map (fun t => (t.status, t.inLen)) = some (0, 16384) := by
  decide +kernel

/-- HP10, HP11, HP12's read. -/
theorem test_rdb :
    refusalOf (step (hosting (.rdb .output 0))) = some (.undefinedByte .output 0) ∧
    (nextOf (step (hosting (.rdb .output 512)))).map (fun t => (t.status, t.replies)) =
      some (0x00FF0701, [.byte 0]) ∧
    (nextOf (step { hosting (.rdb .input 0) with inBuf := [(0, 0xAB)] })).map (·.replies) = some [.byte 0xAB] := by
  decide +kernel

/-- HP12's write, HP8, HP9. -/
theorem test_wrb :
    (nextOf (step (hosting (.wrb .input 0 0xAB)))).map (fun t => (t.inBuf, t.inLen)) = some ([(0, 0xAB)], 0) ∧
    (nextOf (step (hosting (.wrb .work 0 1)))).map (fun t => (t.status, t.workBuf)) = some (0x00FF0701, []) ∧
    (nextOf (step (hosting (.wrb .input 16384 1)))).map (fun t => (t.status, t.inBuf)) = some (0x00FF0701, []) := by
  decide +kernel

/-- NP4, NP6, FT1: an unassigned opcode; a word refused while faulted; the first fault kept. -/
theorem test_faults :
    (nextOf (step (hosting (.set 0 0x0A000000)))).map (·.status) = some 0x000A0101 ∧
    nextOf (step { faultedState with host := [.set 0 0x03000000] }) = some faultedState ∧
    nextOf (step { faultedState with host := [.set 0x005 1] }) = some faultedState := by decide +kernel

/-- FT4, RT1: reset clears the fault and every register. -/
theorem test_reset :
    nextOf (step { faultedState with host := [.reset] }) = some { State.reset with epoch := 1 } := by decide +kernel

/-! ## Witnesses: states that meet the hypotheses of the statements -/

/-- A decidable statement about every cell of the vectors' array. -/
theorem cells_of {P : Nat → Nat → Prop} (h : ∀ r, r < 4 → ∀ c, c < 8 → P r c) (r c : Nat) (hr : r < 4) (hc : c < 8) :
    P r c := h r hr c hc

/-- The default configuration with the vectors' parameters is a legal one. -/
theorem configInv_of_default (s : State) (hp : s.params = Params.vectors) (hc : s.cfg = State.reset.cfg) :
    s.ConfigInv := by
  have key : State.reset.ConfigInv :=
    { rows := by decide
      cols := by decide
      div := by decide
      thr := by decide
      anchor := ⟨3, by decide +kernel⟩
      outside := fun r c hr hc => cells_of (P := fun r c => ¬ (r < 3 ∧ c < 5) →
        cellAt Params.vectors State.reset.cfg.kw r c = 0) (by decide +kernel) r c hr hc }
  obtain ⟨params, _, _, _, _, _, _, _, _, _, _, _, _, _, _, cfg, _, _, _, _, _, _⟩ := s
  cases hp
  cases hc
  exact ⟨key.rows, key.cols, key.div, key.thr, key.anchor, key.outside⟩

/-- A 1 × 1 image loaded into `IN` and `WORK`, with one packed byte in `OUT`. -/
def loaded : State :=
  { withWork 1 1 [0, 0, 0, 255] with outLen := 1, outBuf := [(0, 0x80)] }

/-- It meets the invariant. -/
theorem loaded_inv : loaded.Inv where
  params := by decide
  stagedCells := by decide +kernel
  cfgCells := by decide +kernel
  config := configInv_of_default _ rfl rfl
  status := .inl rfl
  inLen := by decide
  workLen := by decide
  outLen := by decide
  clampOut := by decide
  wf := fun b => by cases b <;> decide
  bound := fun b i h => by
    have key : ∀ m : Memory, (∀ e ∈ m, e.1 < 4) → (m.lookup i).isSome → i < 4 := by
      intro m
      induction m with
      | nil => intro _ h; cases h
      | cons e m ih =>
        intro hm h
        simp only [Memory.lookup] at h
        split at h
        · next he => rw [← he]; exact hm e (List.mem_cons_self ..)
        · exact ih (fun e he => hm e (List.mem_cons_of_mem _ he)) h
    have h4 : i < 4 := key _ (by cases b <;> decide) h
    have hcap : 4 ≤ bufCap Params.vectors b := by cases b <;> decide
    exact Nat.lt_of_lt_of_le h4 hcap
  workValid := by
    have : ∀ i, i < 4 → (loaded.workBuf.lookup i).isSome := by decide
    exact this
  outValid := by
    have : ∀ i, i < 1 → (loaded.outBuf.lookup i).isSome := by decide
    exact this

/-- The invariant does not look at the host's actions. -/
theorem loaded_inv_host (l : List HostAction) : (loaded.setHost l).Inv :=
  { loaded_inv with
    config := configInv_of_default _ rfl rfl
    wf := fun b => by
      cases b
      exacts [loaded_inv.wf .input, loaded_inv.wf .work, loaded_inv.wf .output] }

theorem witness_DecodeEncodeRoundTrip : (Instr.pack 255).wellFormed = true := by decide
theorem witness_LegalWordReencodes : decode 0x020000FF = .ok (.loadpreset 255) := by rfl

/-- Both clauses: the action in the host's list, and the word placed after reset. -/
theorem witness_StepRunsTheDecodedCommand :
    (∃ s : State, s.host = [.set 0 0x09000000] ∧ s.clean ∧ decode 0x09000000 = .ok .raster) ∧
    (State.reset.clean ∧ decode 0x02000001 = .ok (.loadpreset 1)) :=
  ⟨⟨hosting (.set 0 0x09000000), rfl, by decide, rfl⟩, by decide, rfl⟩

/-- NP4, NP2, NP3: each of the three conditions, the first at its boundary 0x0A. -/
theorem witness_IllegalWordRecordsIllegalCommand :
    (∃ s : State, s.host = [.set 0 0x0A000000] ∧ s.clean ∧ 0x0A ≤ ((0x0A000000 : Word).extractLsb' 24 8).toNat) ∧
    (∃ s : State, s.host = [.set 0 0x00000100] ∧ s.clean ∧ (0x00000100 : Word).extractLsb' 8 16 ≠ 0) ∧
    (∃ s : State, s.host = [.set 0 0x00000001] ∧ s.clean ∧ ((0x00000001 : Word).extractLsb' 24 8).toNat ≠ 0x02 ∧
      ((0x00000001 : Word).extractLsb' 24 8).toNat ≠ 0x08 ∧ (0x00000001 : Word).extractLsb' 0 8 ≠ 0) :=
  ⟨⟨hosting (.set 0 0x0A000000), rfl, by decide, by decide⟩, ⟨hosting (.set 0 0x00000100), rfl, by decide, by decide⟩,
    ⟨hosting (.set 0 0x00000001), rfl, by decide, by decide, by decide, by decide⟩⟩

theorem witness_FaultedBlockRefusesEveryCommand :
    ∃ s : State, s.host = [.set 0 0x00000000] ∧ s.faulted = true :=
  ⟨{ faultedState with host := [.set 0 0x00000000] }, rfl, by decide⟩

theorem witness_IdleBlockKeepsItsState : State.reset.host = [] := rfl

/-- Each of the two clauses. -/
theorem witness_FaultEntryRecordsTheFirstFault : State.reset.clean ∧ faultedState.faulted = true := by decide

theorem witness_FaultingCommandChangesOnlyStatus :
    ∃ t, exec (.loadpreset 2) State.reset = .next t := ⟨_, rfl⟩

/-- The three clauses: a refused command, a reset, a host write to `STATUS`. -/
theorem witness_OnlyResetClearsAFault :
    (∃ s t : State, s.faulted = true ∧ step s = .next t ∧ s.host = [.set 0 0x00000000]) ∧
    (∃ s t : State, s.faulted = true ∧ s.host = [.reset] ∧ step s = .next t) ∧
    (∃ s : State, s.host = [.set 1 0]) :=
  ⟨⟨{ faultedState with host := [.set 0 0x00000000] }, _, by decide, rfl, rfl⟩,
    ⟨{ faultedState with host := [.reset] }, _, by decide, rfl, rfl⟩, ⟨hosting (.set 1 0), rfl⟩⟩

theorem witness_ResetMeetsTheInvariant : Params.vectors.legal := by decide

/-- A `RASTER` from a state with the invariant. -/
theorem witness_StepKeepsTheInvariant :
    ∃ s t : State, s.Inv ∧ step s = .next t :=
  ⟨loaded.setHost [.set 0 0x09000000], _, loaded_inv_host _, rfl⟩

theorem witness_StepKeepsTheConfigurationLegal :
    ∃ s t : State, s.params.legal ∧ s.ConfigInv ∧ step s = .next t :=
  ⟨hosting (.set 0 configureWord), _, by decide, configInv_of_default _ rfl rfl, rfl⟩

theorem witness_OnlyConfigureAndResetChangeTheConfiguration :
    ∃ s : State, (nextOf (step s)).any (fun t => decide (t.cfg ≠ s.cfg)) = true ∧ s.host = [.set 0 configureWord] :=
  ⟨{ hosting (.set 0 configureWord) with staged := { State.reset.staged with div := 8 } }, by decide +kernel, rfl⟩

theorem witness_NoStepChangesTheParameters : ∃ t, step State.reset = .next t := ⟨_, rfl⟩

theorem witness_CommandsWriteOnlyTheirResults : ∃ t, exec .raster loaded = .next t := ⟨_, rfl⟩

theorem witness_StagingReachesOnlyConfigure :
    ∃ t, Instr.raster ≠ .configure ∧ (∀ p, Instr.raster ≠ .loadpreset p) ∧ exec .raster loaded = .next t :=
  ⟨_, by decide, fun _ => by simp, rfl⟩

/-- CL5's denominator, and what the clause then says of it. -/
theorem witness_ClampIsTheRationalClamp : 0 < 2 ∧ clampRatio .halfEven 255 2 = 128 := by decide

/-- The clauses at their boundaries: 255 itself, CL7's 509/2, values on both sides of 509/2 and of 1/2. -/
theorem witness_ClampIsMonotoneOntoBytes :
    (255 ≤ 255) ∧ (0 < 2 ∧ (509 : Int) ≤ 511) ∧ (509 / 2 : ℚ) ≤ 509 / 2 ∧ (509 / 2 : ℚ) < 255 ∧ (2 / 5 : ℚ) < 1 / 2 :=
  ⟨by decide, by decide, le_refl _, by norm_num, by norm_num⟩

/-- CL7 and CL5: 509/2, the last tie, n = 254 even; 255/2, n = 127 odd. -/
theorem witness_TieRulesDifferOnlyOnEvenHalves :
    (0 < 2 ∧ 254 ≤ 254 ∧ 254 % 2 = 0 ∧ 2 * (509 : Int) = (2 * (254 : Nat) + 1) * ((2 : Nat) : Int)) ∧
    (127 ≤ 254 ∧ 127 % 2 ≠ 0 ∧ 2 * (255 : Int) = (2 * (127 : Nat) + 1) * ((2 : Nat) : Int)) := by decide

theorem witness_ClampCommandWritesTheClamp : State.reset.clampDen.toNat ≠ 0 := by decide

theorem witness_ClampByZeroRaisesBadOperand : ∃ s : State, s.clampDen = 0 :=
  ⟨{ State.reset with clampDen := 0 }, rfl⟩

theorem witness_ConfigureWritesTheDerivedConfiguration :
    State.reset.params.legal ∧ 1 ≤ State.reset.staged.krows.toNat ∧
      State.reset.staged.krows.toNat ≤ State.reset.params.kmaxRows ∧ 1 ≤ State.reset.staged.kcols.toNat ∧
      State.reset.staged.kcols.toNat ≤ State.reset.params.kmaxCols ∧
      (∃ c, c < State.reset.staged.kcols.toNat ∧ cellAt State.reset.params State.reset.staged.kw 0 c ≠ 0) ∧
      State.reset.staged.thrDen.toNat ≠ 0 :=
  ⟨by decide, by decide, by decide, by decide, by decide, ⟨3, by decide +kernel⟩, by decide⟩

/-- The three clauses at the boundaries: one row too many; as many rows as fit, row 0 zero; denominator 0. -/
theorem witness_ConfigureFaultsInOrder :
    (∃ s : State, ¬ s.staged.krows.toNat ≤ s.params.kmaxRows) ∧
    (∃ s : State, s.staged.krows.toNat = s.params.kmaxRows ∧ s.staged.kcols.toNat = s.params.kmaxCols ∧
      ∀ c, c < s.staged.kcols.toNat → cellAt s.params s.staged.kw 0 c = 0) ∧
    (∃ s : State, s.staged.krows.toNat = 3 ∧ s.staged.kcols.toNat = 5 ∧ cellAt s.params s.staged.kw 0 3 ≠ 0 ∧
      s.staged.thrDen = 0) :=
  ⟨⟨{ State.reset with staged := { State.reset.staged with krows := 5 } }, by decide⟩,
    ⟨{ State.reset with staged := { State.reset.staged with krows := 4, kcols := 8, kw := [] } }, by decide +kernel⟩,
    ⟨{ State.reset with staged := { State.reset.staged with thrDen := 0 } }, by decide +kernel⟩⟩

theorem witness_ConfigureAfterResetChangesNothing : Params.vectors.legal ∧ 2 < 3 ∧ 4 < 5 := by decide

theorem witness_LoadpresetStagesTheKernel : State.reset.params.legal ∧ 0 < 2 ∧ 1 < 2 := by decide
theorem witness_LoadpresetOfNoPresetRaisesBadOperand : 2 ≤ 2 := by decide

/-- The cell of weight 7 of row 0. -/
theorem witness_NonzeroCellsAimForward :
    State.reset.ConfigInv ∧ 0 < State.reset.cfg.krows.toNat ∧ 3 < State.reset.cfg.kcols.toNat ∧
      State.reset.weight 0 3 ≠ 0 :=
  ⟨configInv_of_default _ rfl rfl, by decide, by decide, by decide +kernel⟩

/-- What holds of pixel (0, 0) holds of every pixel of a 1 × 1 image. -/
theorem only_pixel {P : Nat → Nat → Prop} (h : P 0 0) (x y : Nat) (hx : x < 1) (hy : y < 1) : P x y := by
  have hx : x = 0 := Nat.lt_one_iff.mp hx
  have hy : y = 0 := Nat.lt_one_iff.mp hy
  subst hx hy
  exact h

/-- The image of one pixel, ready for every image command, with the default configuration. -/
theorem witness_imageReady :
    loaded.ConfigInv ∧ loaded.imageReady loaded.inLen ∧ loaded.imageReady loaded.workLen :=
  ⟨configInv_of_default _ rfl rfl, by decide, by decide⟩

theorem witness_LoadworkCopiesTheImage : loaded.imageReady loaded.inLen := witness_imageReady.2.1

/-- An illegal size; a legal size with another length. -/
theorem witness_ImageCommandsCheckSizeThenLength :
    ¬ State.reset.sizeLegal ∧ faultedState.sizeLegal ∧
      faultedState.inLen.toNat ≠ 4 * faultedState.imageW * faultedState.imageH := by decide

/-- The three clauses, the last at the first column outside. -/
theorem witness_DiffuseFaultsInOrder :
    ¬ State.reset.sizeLegal ∧
    (faultedState.sizeLegal ∧ faultedState.workLen.toNat ≠ 4 * faultedState.imageW * faultedState.imageH) ∧
    (∃ s : State, s.imageReady s.workLen ∧ s.imageW = s.posX.toNat) :=
  ⟨by decide, by decide, ⟨{ loaded with posX := 1 }, by decide, by decide⟩⟩

theorem witness_DiffuseUpdatesEachTargetOnce :
    ∃ s : State, s.imageReady s.workLen ∧ s.posX.toNat < s.imageW ∧ s.posY.toNat < s.imageH ∧ 1 ≤ s.divisor ∧
      2 < s.imageW ∧ 1 < s.imageH :=
  ⟨diffuseAt01 [101, 101, 101, 255] 0xFF181818 0xFF000000, by decide +kernel⟩

/-- Pixel (2, 0) of the top row, its alpha byte. -/
theorem witness_DiffuseSparesTopRowAndLeftColumn :
    ∃ s t : State, exec .diffuse s = .next t ∧ 2 < s.imageW ∧ 0 < s.imageH ∧ 3 < 4 ∧ s.clean :=
  ⟨diffuseAt01 [101, 101, 101, 255] 0xFF181818 0xFF000000, _, rfl, by decide, by decide, by decide, by decide⟩

/-- Pixel (0, 1), the position itself. -/
theorem witness_DiffuseSparesVisitedPixels :
    ∃ s t : State, s.ConfigInv ∧ exec .diffuse s = .next t ∧ 0 < s.imageW ∧ 1 < s.imageH ∧
      1 = s.posY.toNat ∧ 0 ≤ s.posX.toNat :=
  ⟨diffuseAt01 [101, 101, 101, 255] 0xFF181818 0xFF000000, _, configInv_of_default _ rfl rfl, rfl, by decide, by decide,
    by decide, by decide⟩

theorem witness_DitherWalksTheRaster : loaded.imageReady loaded.inLen := witness_imageReady.2.1

theorem witness_DitherStepStoresAfterOrBefore : State.reset.ConfigInv ∧ 1 < 3 ∧ 1 < 2 :=
  ⟨configInv_of_default _ rfl rfl, by decide, by decide⟩

theorem witness_DitherLeavesBlackAndWhite : loaded.ConfigInv ∧ loaded.imageReady loaded.inLen :=
  ⟨witness_imageReady.1, witness_imageReady.2.1⟩

/-- Two blocks that differ in everything the pass does not read. -/
theorem witness_DitherDependsOnlyOnImageAndConfiguration :
    ∃ a b : State, a.params = b.params ∧ a.cfg = b.cfg ∧ a.width = b.width ∧ a.height = b.height ∧
      a.inLen = b.inLen ∧ (∀ j, j < 4 * a.imageW * a.imageH → a.readByte .input j = b.readByte .input j) ∧
      a.imageReady a.inLen ∧ a.workBuf ≠ b.workBuf ∧ a.staged ≠ b.staged :=
  ⟨loaded, { loaded with workBuf := [], staged := { loaded.staged with div := 8 } }, rfl, rfl, rfl, rfl, rfl,
    fun _ _ => rfl, by decide, by decide, by decide⟩

/-- Two images of one pixel, alpha 255 and alpha 0. -/
theorem witness_DitherColoursIgnoreAlpha :
    ∃ a b : State, a.params = b.params ∧ a.cfg = b.cfg ∧ a.width = b.width ∧ a.height = b.height ∧
      a.inLen = b.inLen ∧ (∀ x y k, x < a.imageW → y < a.imageH → k < 3 →
        a.readByte .input (pixelIndex a.imageW x y + k) = b.readByte .input (pixelIndex a.imageW x y + k)) ∧
      a.imageReady a.inLen ∧ a.readByte .input 3 ≠ b.readByte .input 3 := by
  refine ⟨loaded, { loaded with inBuf := bytesFrom0 [0, 0, 0, 0] }, rfl, rfl, rfl, rfl, rfl, ?_, by decide, by decide⟩
  intro x y k hx hy hk
  have hx : x = 0 := Nat.lt_one_iff.mp hx
  have hy : y = 0 := Nat.lt_one_iff.mp hy
  have : k = 0 ∨ k = 1 ∨ k = 2 := by omega
  subst hx hy
  rcases this with rfl | rfl | rfl <;> rfl

theorem witness_EdgePixelsAreThresholdedAlone : loaded.ConfigInv ∧ loaded.imageReady loaded.inLen :=
  witness_DitherLeavesBlackAndWhite

/-- The black pixel is its own thresholded value. -/
theorem witness_ThresholdedImagePassesUnchanged :
    loaded.ConfigInv ∧ loaded.imageReady loaded.inLen ∧
      (∀ x y, x < loaded.imageW → y < loaded.imageH →
        thresholdPixel loaded.threshold (loaded.readPixel .input loaded.imageW x y) =
          loaded.readPixel .input loaded.imageW x y) := by
  refine ⟨witness_imageReady.1, witness_imageReady.2.1, fun x y hx hy => ?_⟩
  exact only_pixel (P := fun x y => thresholdPixel loaded.threshold (loaded.readPixel .input loaded.imageW x y) =
    loaded.readPixel .input loaded.imageW x y) (by decide +kernel) x y hx hy

/-- Both sources. -/
theorem witness_PackSetsOneBitPerPixel :
    loaded.imageReady (if 0 = 0 then loaded.inLen else loaded.workLen) ∧
      loaded.imageReady (if 1 = 0 then loaded.inLen else loaded.workLen) := by decide

theorem witness_PackFaultsInOrder :
    2 ≤ 2 ∧ (1 < 2 ∧ ¬ State.reset.sizeLegal) ∧
      (faultedState.sizeLegal ∧ faultedState.inLen.toNat ≠ 4 * faultedState.imageW * faultedState.imageH) ∧
      (faultedState.sizeLegal ∧ faultedState.workLen.toNat ≠ 4 * faultedState.imageW * faultedState.imageH) := by
  decide

theorem witness_RasterIsDitherThenPackWork : loaded.imageReady loaded.inLen := witness_imageReady.2.1

theorem witness_RasterBitsAreTheBlackPixels : loaded.ConfigInv ∧ loaded.imageReady loaded.inLen :=
  witness_DitherLeavesBlackAndWhite

/-- The black image at threshold 1, the lowest R655 and C2 admit. -/
def blackAt1 : State := { loaded with cfg := { loaded.cfg with thr := 1 } }

/-- A black image at thresholds 128 and 1, and a white one. -/
theorem witness_UniformImagesRasterToUniformBits :
    (loaded.ConfigInv ∧ loaded.imageReady loaded.inLen ∧ 1 ≤ loaded.threshold ∧
      ∀ x y, x < loaded.imageW → y < loaded.imageH → (loaded.readPixel .input loaded.imageW x y).isBlack) ∧
    (blackAt1.ConfigInv ∧ blackAt1.imageReady blackAt1.inLen ∧ blackAt1.threshold = 1 ∧
      ∀ x y, x < blackAt1.imageW → y < blackAt1.imageH →
        (blackAt1.readPixel .input blackAt1.imageW x y).isBlack) ∧
    (∃ s : State, s.ConfigInv ∧ s.imageReady s.inLen ∧
      ∀ x y, x < s.imageW → y < s.imageH → (s.readPixel .input s.imageW x y).isWhite) :=
  ⟨⟨witness_imageReady.1, by decide, by decide,
      fun x y hx hy => only_pixel (P := fun x y => (loaded.readPixel .input loaded.imageW x y).isBlack)
        (by decide) x y hx hy⟩,
    ⟨{ loaded_inv.config with thr := by decide }, by decide, by decide,
      fun x y hx hy => only_pixel (P := fun x y => (blackAt1.readPixel .input blackAt1.imageW x y).isBlack)
        (by decide) x y hx hy⟩,
    ⟨withImage 1 1 [255, 255, 255, 7], configInv_of_default _ rfl rfl, by decide,
      fun x y hx hy => only_pixel (P := fun x y => ((withImage 1 1 [255, 255, 255, 7]).readPixel .input 1 x y).isWhite)
        (by decide) x y hx hy⟩⟩

/-- The last cell, and the first and last unassigned indices of R129's parts with 32 cells. -/
theorem witness_RegisterMapPlacesTheKernelCells :
    Params.vectors.legal ∧ 3 < Params.vectors.kmaxRows ∧ 7 < Params.vectors.kmaxCols ∧
      regOfIndex Params.vectors 0x11F = some (.sKw 31) ∧ regOfIndex Params.vectors 0x120 = none ∧
      regOfIndex Params.vectors 0x21F = some (.cfgKw 31) ∧ regOfIndex Params.vectors 0x220 = none ∧
      regOfIndex Params.vectors 0x0FF = none ∧ regOfIndex Params.vectors 0x025 = none := by decide +kernel

theorem witness_GetReturnsTheRegister :
    (∃ s : State, s.host = [.get 0x024] ∧ regOfIndex s.params 0x024 = some .cfgAnchor) ∧
    (∃ s : State, s.host = [.get 0x300] ∧ regOfIndex s.params 0x300 = none) :=
  ⟨⟨hosting (.get 0x024), rfl, by decide⟩, ⟨hosting (.get 0x300), rfl, by decide⟩⟩

/-- `IN_LEN` at its capacity. -/
theorem witness_SetStoresOneRegister :
    ∃ s : State, s.Inv ∧ s.host = [.set 0x004 16384] ∧ regOfIndex s.params 0x004 = some .inLen ∧
      accessOf .inLen = .rw ∧ (16384 : Word).toNat ≤ s.params.imageCap :=
  ⟨loaded.setHost [.set 0x004 16384], loaded_inv_host _, rfl, by decide, by decide, by decide⟩

/-- The three clauses: an unassigned index, a read-only register, one byte too many. -/
theorem witness_ForbiddenSetFaults :
    (∃ s : State, s.host = [.set 0x00F 1] ∧ regOfIndex s.params 0x00F = none) ∧
    (∃ s : State, s.host = [.set 0x023 1] ∧ regOfIndex s.params 0x023 = some .cfgThr ∧ accessOf .cfgThr = .ro) ∧
    (∃ s : State, s.host = [.set 0x004 16385] ∧ regOfIndex s.params 0x004 = some .inLen ∧
      s.params.imageCap < (16385 : Word).toNat) :=
  ⟨⟨hosting (.set 0x00F 1), rfl, by decide⟩, ⟨hosting (.set 0x023 1), rfl, by decide, by decide⟩,
    ⟨hosting (.set 0x004 16385), rfl, by decide, by decide⟩⟩

theorem witness_WrbStoresOneInputByte :
    (∃ s : State, s.host = [.wrb .input 16383 1] ∧ 16383 < s.params.imageCap) ∧
    (∃ s : State, s.host = [.wrb .input 16384 1] ∧ ¬ 16384 < s.params.imageCap) ∧
    (∃ s : State, s.host = [.wrb .work 0 1]) :=
  ⟨⟨hosting (.wrb .input 16383 1), rfl, by decide⟩, ⟨hosting (.wrb .input 16384 1), rfl, by decide⟩,
    ⟨hosting (.wrb .work 0 1), rfl⟩⟩

/-- The three clauses of `WORK`: index 3 below `WORK_LEN` 4, index 4 at it, index 16384 at the capacity. -/
theorem witness_RdbHasThreeOutcomes :
    3 < bufCap loaded.params .work ∧ 3 < loaded.workLen.toNat ∧ 4 < bufCap loaded.params .work ∧
      loaded.workLen.toNat ≤ 4 ∧ bufCap loaded.params .work ≤ 16384 := by decide

theorem witness_ResetGivesTheStatedValues : ∃ s : State, s.host = [.reset] := ⟨hosting .reset, rfl⟩

/-- A read, which replies, and a write, which does not. -/
theorem witness_EachStepTakesOneHostAction :
    (∃ s t : State, s.host = [.get 0x024] ∧ step s = .next t) ∧
    (∃ s t : State, s.host = [.wrb .input 0 1] ∧ step s = .next t) :=
  ⟨⟨hosting (.get 0x024), _, rfl, rfl⟩, ⟨hosting (.wrb .input 0 1), _, rfl, rfl⟩⟩

end Sys2Proof.Tests
end

section
/-! SUPPORT. The decoder inverted (R306 to R311): what a legal word's fields are, and that the word is the one its
command encodes to. -/
namespace Sys2Proof

/-- An assigned opcode is its command's own, and the command carries `ARG` exactly when its opcode takes one (R307,
R308). -/
theorem instrOfOpcode_eq_some {opc arg : Nat} {i : Instr} (h : instrOfOpcode opc arg = some i) :
    (opcodeOf i).toNat = opc ∧ argOf i = if takesArg opc then arg else 0 := by
  unfold instrOfOpcode at h
  split at h <;> cases h <;> exact ⟨rfl, rfl⟩

/-- A word that decodes has an assigned opcode, no reserved bit, and `ARG` 0 where its opcode takes none (R311). -/
theorem decode_eq_ok {w : Word} {i : Instr} (h : decode w = .ok i) :
    instrOfOpcode (opcField w).toNat (argField w).toNat = some i ∧ rsvdField w = 0 ∧
      (takesArg (opcField w).toNat = false → argField w = 0) := by
  unfold decode at h
  split at h
  · cases h
  next j hj =>
    split_ifs at h with hr ha
    cases h
    exact ⟨hj, not_not.mp hr, fun hk => not_not.mp fun hne => ha ⟨hk, hne⟩⟩

/-- A word without reserved bits is its opcode and its operand joined (R306). -/
theorem joinBytes_opcField_argField {w : Word} (h : rsvdField w = 0) :
    joinBytes (opcField w) 0 0 (argField w) = w := by
  have hr : w.toNat >>> 8 % 2 ^ 16 = 0 := by simpa [rsvdField] using congrArg BitVec.toNat h
  apply BitVec.eq_of_toNat_eq
  have hw := w.isLt
  rw [joinBytes_toNat, opcField, argField, BitVec.extractLsb'_toNat, BitVec.extractLsb'_toNat]
  simp only [Nat.shiftRight_eq_div_pow, BitVec.ofNat_eq_ofNat, BitVec.toNat_ofNat] at hr ⊢
  omega

/-- A word that decodes is the word of its command: no bit of it is ignored (R311). -/
theorem encode_of_decode {w : Word} {i : Instr} (h : decode w = .ok i) : encode i = w := by
  obtain ⟨hi, hr, ha⟩ := decode_eq_ok h
  obtain ⟨hopc, harg⟩ := instrOfOpcode_eq_some hi
  have hopc : opcodeOf i = opcField w := BitVec.eq_of_toNat_eq hopc
  have harg : BitVec.ofNat 8 (argOf i) = argField w := by
    cases hk : takesArg (opcField w).toNat
    · simp [harg, hk, ha hk]
    · simp [harg, hk]
  rw [encode, hopc, harg, joinBytes_opcField_argField hr]

end Sys2Proof
end

section
/-! SUPPORT. Everything a command, a host action and a step can do, with the guard of each case: the invariants below are
case analyses of these, and unfold none of them again. -/
namespace Sys2Proof.Machine

/-! ## Commands -/

/-- A command whose checks begin with the size and the length, all passed, has its image ready (R803, R804). -/
theorem State.imageReady_of_checks {s : State} {len : Word} {rest : List (Bool × Cause)}
    (hc : ∀ x ∈ (s.badDimension, Cause.badDimension) :: (s.badLength len, Cause.badLength) :: rest, x.1 = false) :
    s.imageReady len := by
  simp only [List.forall_mem_cons] at hc
  obtain ⟨hd, hl, -⟩ := hc
  exact ⟨s.badDimension_eq_false.mp hd, (s.badLength_eq_false len).mp hl⟩

/-- What a command does to the state once its checks have passed (R307, R25, R810). -/
inductive CommandEffect (s : State) : Instr → State → Prop
  | nop : CommandEffect s .nop s
  | configure {c0 : Nat} (shape : badKernelShape s.params s.staged = false)
      (first : firstNonzeroCol s.params s.staged = some c0) (den : s.staged.thrDen ≠ 0) :
      CommandEffect s .configure (s.setCfg (newConfiguration s.params s.staged c0))
  | loadpreset {n : Nat} (preset : n < 2) :
      CommandEffect s (.loadpreset n) (s.setStaged (stagePreset s.params n s.staged))
  | clamp (den : s.clampDen ≠ 0) :
      CommandEffect s .clamp
        (s.setClampOut (BitVec.ofNat 32 (clampRatio s.params.roundTie s.clampNum.toInt s.clampDen.toNat)))
  | thresh :
      CommandEffect s .thresh (s.setPixQuant (wordOfPixel (thresholdPixel s.threshold (pixelOfWord s.pixOrig))))
  | loadwork (ready : s.imageReady s.inLen) :
      CommandEffect s .loadwork ((s.copyImage s.imageBytes).setWorkLen (BitVec.ofNat 32 s.imageBytes))
  | diffuse (ready : s.imageReady s.workLen) (pos : s.posX.toNat < s.imageW ∧ s.posY.toNat < s.imageH) :
      CommandEffect s .diffuse
        (s.diffuse (pixelOfWord s.pixOrig) (pixelOfWord s.pixQuant) s.posX.toNat s.posY.toNat s.imageW s.imageH)
  | dither (ready : s.imageReady s.inLen) :
      CommandEffect s .dither ((s.dither s.imageW s.imageH).setWorkLen (BitVec.ofNat 32 s.imageBytes))
  | pack {src : Nat} (sel : src ≤ 1) (ready : s.imageReady (s.packLength src)) :
      CommandEffect s (.pack src)
        ((s.packImage (packSource src) s.imageW s.imageH).setOutLen (BitVec.ofNat 32 s.packedBytes))
  | raster (ready : s.imageReady s.inLen) : CommandEffect s .raster s.raster

/-- A command whose checks, when they pass, give its effect either raises a fault and nothing else or has that effect
(R812). -/
theorem State.runCommand_raise_or_effect {s t e : State} {i : Instr} {checks : List (Bool × Cause)}
    (h : s.runCommand i checks e = .next t) (he : (∀ x ∈ checks, x.1 = false) → CommandEffect s i e) :
    (∃ c, t = s.raise c (opcodeOf i)) ∨ CommandEffect s i t := by
  rcases s.runCommand_cases t i checks e h with ⟨c, -, rfl⟩ | ⟨hpass, rfl⟩
  · exact .inl ⟨c, rfl⟩
  · exact .inr (he ((firstCause_none checks).mp hpass))

/-- Everything a command can do: raise a fault with its own opcode, or take its effect with its checks passed. -/
theorem exec_cases {i : Instr} {s t : State} (h : exec i s = .next t) :
    (∃ c, t = s.raise c (opcodeOf i)) ∨ CommandEffect s i t := by
  cases i with
  | nop =>
    rw [exec_nop_eq] at h
    exact State.runCommand_raise_or_effect h fun _ => .nop
  | configure =>
    rw [exec_configure_eq] at h
    refine State.runCommand_raise_or_effect h fun hc => ?_
    simp only [List.forall_mem_cons, Option.isNone_eq_false_iff, beq_eq_false_iff_ne] at hc
    obtain ⟨shape, first, den, -⟩ := hc
    obtain ⟨c0, hc0⟩ := Option.isSome_iff_exists.mp first
    rw [hc0]
    exact .configure shape hc0 den
  | loadpreset n =>
    rw [exec_loadpreset_eq] at h
    exact State.runCommand_raise_or_effect h fun hc => .loadpreset (by simpa using hc)
  | clamp =>
    rw [exec_clamp_eq] at h
    exact State.runCommand_raise_or_effect h fun hc => .clamp (by simpa using hc)
  | thresh =>
    rw [exec_thresh_eq] at h
    exact State.runCommand_raise_or_effect h fun _ => .thresh
  | loadwork =>
    rw [exec_loadwork_eq] at h
    exact State.runCommand_raise_or_effect h fun hc => .loadwork (State.imageReady_of_checks hc)
  | diffuse =>
    rw [exec_diffuse_eq] at h
    exact State.runCommand_raise_or_effect h fun hc =>
      .diffuse (State.imageReady_of_checks hc) (s.badPosition_eq_false.mp (hc (s.badPosition, .badOperand) (by simp)))
  | dither =>
    rw [exec_dither_eq] at h
    exact State.runCommand_raise_or_effect h fun hc => .dither (State.imageReady_of_checks hc)
  | pack src =>
    rw [exec_pack_eq] at h
    refine State.runCommand_raise_or_effect h fun hc => ?_
    obtain ⟨sel, hready⟩ := List.forall_mem_cons.mp hc
    exact .pack (by simpa using sel) (State.imageReady_of_checks hready)
  | raster =>
    rw [exec_raster_eq] at h
    exact State.runCommand_raise_or_effect h fun hc => .raster (State.imageReady_of_checks hc)

/-! ## Host actions and steps -/

/-- `CMD` is the only write-only register (R103). -/
theorem accessOf_eq_wo {r : Reg} (h : accessOf r = .wo) : r = .cmd := by
  cases r <;> cases h
  rfl

/-- `CMD` stands at index 0 only (R103). -/
theorem regOfIndex_eq_cmd {p : Params} {j : Nat} (h : regOfIndex p j = some .cmd) : j = 0 := by
  unfold regOfIndex at h
  split_ifs at h
  · obtain ⟨l₁, l₂, hl, -⟩ := List.lookup_eq_some_iff.mp h
    have hmem : (j, Reg.cmd) ∈ namedRegs := hl ▸ by simp
    simpa [namedRegs] using hmem
  · cases h
  · cases h

/-- The host writes R706 forbids: to an unassigned index, to a read-only register, to `IN_LEN` above `IN_CAP`. -/
abbrev ForbiddenSet (p : Params) (j : Nat) (v : Word) : Prop :=
  regOfIndex p j = none ∨ (∃ r, regOfIndex p j = some r ∧ accessOf r = .ro) ∨
    (regOfIndex p j = some .inLen ∧ p.imageCap < v.toNat)

/-- What a host action does, with the guard of each of its outcomes (R703 to R708, R211, R212, R900). -/
inductive HostEffect (s : State) : HostAction → State → Prop
  | get {j : Nat} {r : Reg} (reg : regOfIndex s.params j = some r) :
      HostEffect s (.get j) (s.reply (.word (s.readReg r)))
  | getFault {j : Nat} (unassigned : regOfIndex s.params j = none) :
      HostEffect s (.get j) (s.raiseAccess.reply (.word 0))
  | refused {w : Word} (fault : s.faulted = true) : HostEffect s (.set 0 w) s
  | illegal {w : Word} {e : DecodeError} (clean : s.clean) (word : decode w = .error e) :
      HostEffect s (.set 0 w) (s.raise .illegalCommand (opcField w))
  | command {w : Word} {i : Instr} {t : State} (clean : s.clean) (word : decode w = .ok i)
      (run : exec i s = .next t) : HostEffect s (.set 0 w) t
  | store {j : Nat} {v : Word} {r : Reg} (reg : regOfIndex s.params j = some r) (access : accessOf r = .rw)
      (len : r = .inLen → v.toNat ≤ s.params.imageCap) : HostEffect s (.set j v) (s.writeReg r v)
  | setFault {j : Nat} {v : Word} (bad : ForbiddenSet s.params j v) : HostEffect s (.set j v) s.raiseAccess
  | rdb {b : Buf} {i : Nat} (idx : i < bufCap s.params b) (valid : i < s.readableLen b) :
      HostEffect s (.rdb b i) (s.reply (.byte (s.readByte b i)))
  | rdbFault {b : Buf} {i : Nat} (idx : bufCap s.params b ≤ i) :
      HostEffect s (.rdb b i) (s.raiseAccess.reply (.byte 0))
  | wrb {i : Nat} {v : Byte} (idx : i < s.params.imageCap) :
      HostEffect s (.wrb .input i v) (s.writeByte .input i v)
  | wrbFault {b : Buf} {i : Nat} {v : Byte} (bad : ¬ (b = .input ∧ i < s.params.imageCap)) :
      HostEffect s (.wrb b i v) s.raiseAccess
  | reset : HostEffect s .reset s.resetBlock

/-- Everything the issue of a word can do (R703, R704, R802). -/
theorem issueCommand_effect {s t : State} {w : Word} (h : issueCommand w s = .next t) :
    HostEffect s (.set 0 w) t := by
  unfold issueCommand at h
  split at h
  next hf => cases h; exact .refused hf
  next hf =>
    have clean : s.clean := by simpa using hf
    split at h
    next e he => cases h; exact .illegal clean he
    next i hi => exact .command clean hi h

/-- Everything a register write can do (R706). -/
theorem hostSet_effect {s t : State} {j : Nat} {v : Word} (h : hostSet j v s = .next t) :
    HostEffect s (.set j v) t := by
  unfold hostSet at h
  split at h
  next hr => cases h; exact .setFault (.inl hr)
  next r hr =>
    unfold hostStore at h
    split at h
    next hwo =>
      cases accessOf_eq_wo hwo
      cases regOfIndex_eq_cmd hr
      exact issueCommand_effect h
    next hro => cases h; exact .setFault (.inr (.inl ⟨r, hr, hro⟩))
    next hrw =>
      split_ifs at h with hlen
      · cases h
        exact .setFault (.inr (.inr ⟨hlen.1 ▸ hr, hlen.2⟩))
      · cases h
        exact .store hr hrw fun hin => not_lt.mp fun hcap => hlen ⟨hin, hcap⟩

/-- Everything a host action can do when it has a next state. -/
theorem hostAct_effect {s t : State} {a : HostAction} (h : hostAct a s = .next t) : HostEffect s a t := by
  cases a with
  | get j =>
    simp only [hostAct, hostGet] at h
    split at h
    next hr => cases h; exact .getFault hr
    next r hr => cases h; exact .get hr
  | set j v => exact hostSet_effect h
  | rdb b i =>
    simp only [hostAct, hostRdb] at h
    split_ifs at h with hcap hlen
    · cases h; exact .rdbFault hcap
    · cases h; exact .rdb (not_le.mp hcap) hlen
  | wrb b i v =>
    simp only [hostAct, hostWrb] at h
    split_ifs at h with hok
    · cases h
      obtain ⟨rfl, hi⟩ := hok
      exact .wrb hi
    · cases h; exact .wrbFault hok
  | reset => cases h; exact .reset

theorem step_idle {s : State} (h : s.host = []) : step s = .next s := by
  simp only [step, hostStep, h]

theorem step_action {s : State} {a : HostAction} {rest : List HostAction} (h : s.host = a :: rest) :
    step s = hostAct a (s.setHost rest) := by
  simp only [step, hostStep, h]

/-- Everything a step can do: stay idle, or take the host's next action and do it (R703, R902). -/
theorem step_cases {s t : State} (h : step s = .next t) :
    (s.host = [] ∧ t = s) ∨ ∃ a rest, s.host = a :: rest ∧ HostEffect (s.setHost rest) a t := by
  cases hh : s.host with
  | nil =>
    rw [step_idle hh] at h
    cases h
    exact .inl ⟨rfl, rfl⟩
  | cons a rest =>
    rw [step_action hh] at h
    exact .inr ⟨a, rest, rfl, hostAct_effect h⟩

/-- A predicate that taking an action from the queue and doing it both keep is kept by every step. -/
theorem step_keeps (P : State → Prop) (take : ∀ s rest, P s → P (s.setHost rest))
    (act : ∀ s a t, P s → HostEffect s a t → P t) {s t : State} (hs : P s) (h : step s = .next t) : P t := by
  rcases step_cases h with ⟨-, rfl⟩ | ⟨a, rest, -, ha⟩
  · exact hs
  · exact act _ _ _ (take _ _ hs) ha

end Sys2Proof.Machine
end

section
/-! SUPPORT. The machine's invariant, one lemma per state operation; reset (O13), every command and every host action
keep it (O14). -/
namespace Sys2Proof.Machine

/-! ## The configuration invariants (R131) -/

/-- The configuration invariants speak of the parameters and the configuration only. -/
theorem State.ConfigInv.of_eq {s t : State} (h : s.ConfigInv) (hp : t.params = s.params) (hc : t.cfg = s.cfg) :
    t.ConfigInv := by
  obtain ⟨rows, cols, div, thr, anchor, outside⟩ := h
  constructor <;> simpa only [State.divisor, State.threshold, State.weight, State.anchor, hp, hc]

/-- Legal parameters give a kernel array its three rows and five columns at least, and at most 85 columns (R10). -/
theorem kernelShape_of_legal {p : Params} (h : p.legal) : 3 ≤ p.kmaxRows ∧ 5 ≤ p.kmaxCols ∧ p.kmaxCols ≤ 85 := by
  obtain ⟨-, -, -, hr, hc, hcells⟩ := h
  have : 3 * p.kmaxCols ≤ p.kmaxRows * p.kmaxCols := Nat.mul_le_mul_right _ hr
  omega

/-- A weight is 0 exactly when its cell is. -/
theorem State.weight_eq_zero_iff (s : State) (r c : Nat) : s.weight r c = 0 ↔ cellAt s.params s.cfg.kw r c = 0 := by
  rw [State.weight, ← BitVec.toInt_zero (w := 32), BitVec.toInt_inj]
  rfl

/-- `CFG_DIV` as `CONFIGURE` writes it is positive as a signed number (R125, R452). -/
theorem coerceDivisor_bounds (d : Word) : 1 ≤ (coerceDivisor d).toNat ∧ (coerceDivisor d).toNat ≤ 2 ^ 31 - 1 := by
  unfold coerceDivisor
  split
  next h =>
    rw [BitVec.toInt_eq_toNat_cond] at h
    split at h <;> omega
  next => decide

/-- One less than a small column, written to `CFG_ANCHOR`, reads back (R127, R451). -/
theorem toInt_anchorWord {c0 : Nat} (h : c0 < 2 ^ 31) : (BitVec.ofInt 32 ((c0 : Int) - 1)).toInt = (c0 : Int) - 1 := by
  rw [BitVec.toInt_ofInt]
  exact Int.bmod_eq_of_le (by omega) (by omega)

theorem newConfiguration_cells (p : Params) (g : Staged) (c0 : Nat) :
    (newConfiguration p g c0).kw.length = p.kernelCells := by
  simp only [newConfiguration, tabulateCells_length]

theorem stagePreset_cells (p : Params) (n : Nat) (g : Staged) : (stagePreset p n g).kw.length = p.kernelCells := by
  simp only [stagePreset, tabulateCells_length]

/-- The weights `CONFIGURE` writes: the staged ones inside the shape, 0 outside it (R128, R456). -/
theorem newConfiguration_cellAt (p : Params) (g : Staged) (c0 : Nat) {r c : Nat} (hr : r < p.kmaxRows)
    (hc : c < p.kmaxCols) :
    cellAt p (newConfiguration p g c0).kw r c = if r < g.rows ∧ c < g.cols then cellAt p g.kw r c else 0 := by
  simp only [newConfiguration, cellAt_tabulateCells p _ r c hr hc]

/-- The configuration `CONFIGURE` derives with its checks passed is legal (R131, R451 to R453). -/
theorem newConfiguration_configInv {s : State} {c0 : Nat} (hp : s.params.legal)
    (shape : badKernelShape s.params s.staged = false) (first : firstNonzeroCol s.params s.staged = some c0)
    (den : s.staged.thrDen ≠ 0) : (s.setCfg (newConfiguration s.params s.staged c0)).ConfigInv := by
  obtain ⟨hrow1, hrow2, hcol1, hcol2⟩ := (badKernelShape_eq_false _ _).mp shape
  obtain ⟨-, -, hcols⟩ := kernelShape_of_legal hp
  obtain ⟨hlt, hne, hbefore⟩ : c0 < s.staged.cols ∧ cellAt s.params s.staged.kw 0 c0 ≠ 0 ∧
      ∀ c, c < c0 → cellAt s.params s.staged.kw 0 c = 0 := by
    simpa [first] using firstNonzeroCol_cases s.params s.staged
  have hrow0 : ∀ c, c < s.staged.cols →
      cellAt s.params (newConfiguration s.params s.staged c0).kw 0 c = cellAt s.params s.staged.kw 0 c :=
    fun c hc => by rw [newConfiguration_cellAt _ _ _ (by omega) (by omega), if_pos ⟨by omega, hc⟩]
  have hden : 0 < s.staged.thrDen.toNat := Nat.pos_of_ne_zero fun h => den (BitVec.eq_of_toNat_eq h)
  exact {
    rows := ⟨hrow1, hrow2⟩
    cols := ⟨hcol1, hcol2⟩
    div := coerceDivisor_bounds s.staged.div
    thr := (Nat.mod_le _ _).trans (clampRatio_le _ _ _ hden)
    anchor := ⟨c0, hlt, by simpa [State.weight_eq_zero_iff, hrow0 c0 hlt] using hne,
      fun c hc => by simpa [State.weight_eq_zero_iff, hrow0 c (hc.trans hlt)] using hbefore c hc,
      toInt_anchorWord (by omega)⟩
    outside := fun r c hr hc hout => (newConfiguration_cellAt _ _ _ hr hc).trans (if_neg hout) }

/-- The Jarvis-Judice-Ninke weights fill three rows of five columns and no more (R455). -/
theorem weightAt_jjn_outside {r c : Nat} (h : ¬ (r < 3 ∧ c < 5)) : weightAt jjnWeights r c = 0 := by
  rcases not_and_or.mp h with hr | hc
  · have hrow : jjnWeights.getD r [] = [] := List.getD_eq_default _ _ (not_lt.mp hr)
    rw [weightAt, hrow, List.getD_nil]
  · have hrow : (jjnWeights.getD r []).length ≤ 5 := by
      rcases r with _ | _ | _ | r <;> simp [jjnWeights]
    exact List.getD_eq_default _ _ (by omega)

/-- The default configuration is legal (R131, R454, R900). -/
theorem resetWith_configInv {p : Params} (hp : p.legal) : (State.resetWith p).ConfigInv := by
  obtain ⟨hr3, hc5, -⟩ := kernelShape_of_legal hp
  have hcell : ∀ r c, r < p.kmaxRows → c < p.kmaxCols → cellAt p (jjnCells p) r c = weightAt jjnWeights r c :=
    fun r c => cellAt_tabulateCells p _ r c
  have hrow0 : ∀ c, c < 5 → ((State.resetWith p).weight 0 c = 0 ↔ weightAt jjnWeights 0 c = 0) := fun c hc => by
    rw [State.weight_eq_zero_iff, ← hcell 0 c (by omega) (by omega)]
    rfl
  exact {
    rows := ⟨(by decide : 1 ≤ (3 : Word).toNat), hr3⟩
    cols := ⟨(by decide : 1 ≤ (5 : Word).toNat), hc5⟩
    div := (by decide : 1 ≤ (48 : Word).toNat ∧ (48 : Word).toNat ≤ 2 ^ 31 - 1)
    thr := (by decide : (128 : Word).toNat ≤ 255)
    anchor := ⟨3, (by decide : 3 < (5 : Word).toNat), fun h => absurd ((hrow0 3 (by decide)).mp h) (by decide),
      fun c hc => (hrow0 c (by omega)).mpr (by interval_cases c <;> rfl), rfl⟩
    outside := fun r c hr hc hout => (hcell r c hr hc).trans (weightAt_jjn_outside hout) }

/-! ## The invariant through each state operation -/

theorem State.Inv.setHost {s : State} (h : s.Inv) (v : List HostAction) : (s.setHost v).Inv :=
  { h with config := h.config.of_eq rfl rfl }

theorem State.Inv.reply {s : State} (h : s.Inv) (r : HostReply) : (s.reply r).Inv :=
  { h with config := h.config.of_eq rfl rfl }

/-- Fault entry writes `STATUS` with a fault's word, or leaves it (R811). -/
theorem State.Inv.raise {s : State} (h : s.Inv) (c : Cause) (opc : BitVec 8) : (s.raise c opc).Inv := by
  rcases s.raise_cases c opc with ⟨-, he⟩ | ⟨-, he⟩
  · rwa [he]
  · rw [he]
    exact { h with config := h.config.of_eq rfl rfl, status := .inr ⟨c, opc, rfl⟩ }

theorem State.Inv.setCfg {s : State} (h : s.Inv) {v : Configuration} (cells : v.kw.length = s.params.kernelCells)
    (config : (s.setCfg v).ConfigInv) : (s.setCfg v).Inv :=
  { h with cfgCells := cells, config := config }

theorem State.Inv.setStaged {s : State} (h : s.Inv) {v : Staged} (cells : v.kw.length = s.params.kernelCells) :
    (s.setStaged v).Inv :=
  { h with config := h.config.of_eq rfl rfl, stagedCells := cells }

theorem State.Inv.setPixQuant {s : State} (h : s.Inv) (v : Word) : (s.setPixQuant v).Inv :=
  { h with config := h.config.of_eq rfl rfl }

theorem State.Inv.setClampOut {s : State} (h : s.Inv) {v : Word} (byte : v.toNat ≤ 255) : (s.setClampOut v).Inv :=
  { h with config := h.config.of_eq rfl rfl, clampOut := byte }

/-- A new valid length of `WORK` needs its bytes written (R108, R211). -/
theorem State.Inv.setWorkLen {s : State} (h : s.Inv) {n : Nat} (cap : n ≤ s.params.imageCap)
    (written : ∀ i, i < n → (s.workBuf.lookup i).isSome) : (s.setWorkLen (BitVec.ofNat 32 n)).Inv :=
  have hle : (BitVec.ofNat 32 n).toNat ≤ n := Nat.mod_le n _
  { h with
    config := h.config.of_eq rfl rfl
    workLen := hle.trans cap
    workValid := fun i hi => written i (hi.trans_le hle) }

/-- A new valid length of `OUT` needs its bytes written (R109, R211). -/
theorem State.Inv.setOutLen {s : State} (h : s.Inv) {n : Nat} (cap : n ≤ s.params.outCap)
    (written : ∀ i, i < n → (s.outBuf.lookup i).isSome) : (s.setOutLen (BitVec.ofNat 32 n)).Inv :=
  have hle : (BitVec.ofNat 32 n).toNat ≤ n := Nat.mod_le n _
  { h with
    config := h.config.of_eq rfl rfl
    outLen := hle.trans cap
    outValid := fun i hi => written i (hi.trans_le hle) }

/-- A store to a register changes `S_KW` cell by cell, so it keeps its length (R122, R706). -/
theorem State.writeReg_stagedCells (s : State) (r : Reg) (v : Word) :
    (s.writeReg r v).staged.kw.length = s.staged.kw.length := by
  cases r <;> simp [State.writeReg]

theorem State.writeReg_inLen (s : State) (r : Reg) (v : Word) :
    (s.writeReg r v).inLen = if r = .inLen then v else s.inLen := by
  cases r <;> rfl

@[simp] theorem State.writeReg_buf (s : State) (r : Reg) (v : Word) (b : Buf) :
    (s.writeReg r v).buf b = s.buf b := by
  cases b <;> simp [State.buf]

/-- A store to a register keeps the invariant, `IN_LEN` being in range (R107, R706). -/
theorem State.Inv.writeReg {s : State} (h : s.Inv) {r : Reg} {v : Word}
    (len : r = .inLen → v.toNat ≤ s.params.imageCap) : (s.writeReg r v).Inv where
  params := by simpa using h.params
  stagedCells := by simpa [s.writeReg_stagedCells] using h.stagedCells
  cfgCells := by simpa using h.cfgCells
  config := h.config.of_eq (by simp) (by simp)
  status := by simpa using h.status
  inLen := by
    rw [s.writeReg_inLen, s.writeReg_params]
    split
    next hr => exact len hr
    next => exact h.inLen
  workLen := by simpa using h.workLen
  outLen := by simpa using h.outLen
  clampOut := by simpa using h.clampOut
  wf := by simpa using h.wf
  bound := by simpa using h.bound
  workValid := by simpa using h.workValid
  outValid := by simpa using h.outValid

/-! ## The invariant through the procedures -/

/-- Through a procedure that owns one buffer, a written byte of any buffer stays written. -/
theorem OnlyBuf.stays_written {b : Buf} {n : Nat} {s t : State} (h : OnlyBuf b n s t) (c : Buf) {i : Nat}
    (hi : ((s.buf c).lookup i).isSome) : ((t.buf c).lookup i).isSome := by
  obtain rfl | hc := eq_or_ne c b
  · exact h.written i hi
  · obtain ⟨m, rfl, -⟩ := h
    rwa [State.setBuf_buf_other s b c m hc]

/-- A procedure that writes one buffer below its capacity keeps the invariant. -/
theorem OnlyBuf.inv {b : Buf} {n : Nat} {s t : State} (hst : OnlyBuf b n s t) (h : s.Inv)
    (cap : n ≤ bufCap s.params b) : t.Inv := by
  have written := fun c i => hst.stays_written c (i := i)
  obtain ⟨m, rfl, hwf, hsame, -⟩ := hst
  constructor
  case params => simpa using h.params
  case stagedCells => simpa using h.stagedCells
  case cfgCells => simpa using h.cfgCells
  case config => exact h.config.of_eq (by simp) (by simp)
  case status => simpa using h.status
  case inLen => simpa using h.inLen
  case workLen => simpa using h.workLen
  case outLen => simpa using h.outLen
  case clampOut => simpa using h.clampOut
  case wf =>
    intro c
    obtain rfl | hc := eq_or_ne c b
    · simpa using hwf (h.wf c)
    · simpa [State.setBuf_buf_other s b c m hc] using h.wf c
  case bound =>
    intro c i hi
    rw [State.setBuf_params]
    obtain rfl | hc := eq_or_ne c b
    · by_contra hge
      rw [State.setBuf_buf_same, hsame i (by omega)] at hi
      exact hge (h.bound c i hi)
    · exact h.bound c i (by rwa [State.setBuf_buf_other s b c m hc] at hi)
  case workValid => exact fun i hi => written .work i (h.workValid i (by simpa using hi))
  case outValid => exact fun i hi => written .output i (h.outValid i (by simpa using hi))

/-- An image of legal size fits the image buffers (R9, R803). -/
theorem State.imageBytes_le_cap {s : State} (h : s.sizeLegal) : 4 * s.imageW * s.imageH ≤ s.params.imageCap := by
  obtain ⟨-, hw, -, hh⟩ := h
  exact Nat.mul_le_mul (Nat.mul_le_mul_left 4 hw) hh

/-- The packed image of legal size fits `OUT` (R9, R205, R803). -/
theorem State.packedBytes_le_cap {s : State} (h : s.sizeLegal) :
    bytesPerRow s.imageW * s.imageH ≤ s.params.outCap := by
  obtain ⟨-, hw, -, hh⟩ := h
  exact Nat.mul_le_mul (Nat.div_le_div_right (Nat.add_le_add_right hw 7)) hh

/-- The image copied to `WORK`, some more of it written over, and its length recorded: the shape of `LOADWORK` and of
`DITHER` (R557, R600, R607). -/
theorem State.Inv.setWorkLen_of_copyImage {s t : State} (h : s.Inv) (size : s.sizeLegal)
    (rest : OnlyBuf .work (4 * s.imageW * s.imageH) (s.copyImage (4 * s.imageW * s.imageH)) t) :
    (t.setWorkLen (BitVec.ofNat 32 (4 * s.imageW * s.imageH))).Inv := by
  have hst := (s.copyImage_onlyWork _).trans rest
  refine (hst.inv h (imageBytes_le_cap size)).setWorkLen ?_ fun i hi => rest.written i (s.copyImage_written _ i hi)
  rw [hst.params]
  exact imageBytes_le_cap size

theorem State.Inv.dither {s : State} (h : s.Inv) (size : s.sizeLegal) :
    ((s.dither s.imageW s.imageH).setWorkLen (BitVec.ofNat 32 s.imageBytes)).Inv :=
  h.setWorkLen_of_copyImage size (State.ditherPass_onlyWork _ _ _)

/-- The packer keeps the invariant, for an image whose packed bytes fit `OUT` (R653, R654). -/
theorem State.Inv.packImage {s : State} (h : s.Inv) (src : Buf) {w ht : Nat}
    (cap : bytesPerRow w * ht ≤ s.params.outCap) :
    ((s.packImage src w ht).setOutLen (BitVec.ofNat 32 (bytesPerRow w * ht))).Inv := by
  have hst := s.packImage_onlyOut src w ht
  exact (hst.inv h cap).setOutLen (by rwa [hst.params]) (s.packImage_written src w ht)

/-! ## Reset, commands, host actions, steps -/

/-- The state after reset meets the invariant (R900). -/
theorem resetWith_inv {p : Params} (hp : p.legal) : (State.resetWith p).Inv where
  params := hp
  stagedCells := tabulateCells_length p _
  cfgCells := tabulateCells_length p _
  config := resetWith_configInv hp
  status := .inl rfl
  inLen := Nat.zero_le _
  workLen := Nat.zero_le _
  outLen := Nat.zero_le _
  clampOut := Nat.zero_le _
  wf := State.resetWith_wf p
  bound := fun b i hi => by cases b <;> cases hi
  workValid := fun i hi => absurd hi (Nat.not_lt_zero i)
  outValid := fun i hi => absurd hi (Nat.not_lt_zero i)

theorem State.Inv.resetBlock {s : State} (h : s.Inv) : s.resetBlock.Inv :=
  have hr := resetWith_inv h.params
  { hr with config := hr.config.of_eq rfl rfl }

/-- Every command keeps the invariant once its checks have passed. -/
theorem CommandEffect.inv {s t : State} {i : Instr} (h : s.Inv) (e : CommandEffect s i t) : t.Inv := by
  cases e with
  | nop => exact h
  | configure shape first den =>
    exact h.setCfg (newConfiguration_cells _ _ _) (newConfiguration_configInv h.params shape first den)
  | loadpreset => exact h.setStaged (stagePreset_cells _ _ _)
  | clamp den =>
    have hden : 0 < s.clampDen.toNat := Nat.pos_of_ne_zero fun h => den (BitVec.eq_of_toNat_eq h)
    exact h.setClampOut ((Nat.mod_le _ _).trans (clampRatio_le _ _ _ hden))
  | thresh => exact h.setPixQuant _
  | loadwork ready => exact h.setWorkLen_of_copyImage ready.1 (OnlyBuf.refl _ _ _)
  | diffuse ready => exact (s.diffuse_onlyWork _ _ _ _ _ _).inv h (State.imageBytes_le_cap ready.1)
  | dither ready => exact h.dither ready.1
  | pack _ ready => exact h.packImage _ (State.packedBytes_le_cap ready.1)
  | raster ready =>
    exact (h.dither ready.1).packImage .work (by
      rw [State.setWorkLen_params, (s.dither_onlyWork _ _).params]
      exact State.packedBytes_le_cap ready.1)

theorem exec_inv {s t : State} {i : Instr} (h : s.Inv) (run : exec i s = .next t) : t.Inv := by
  rcases exec_cases run with ⟨c, rfl⟩ | e
  · exact h.raise c _
  · exact e.inv h

/-- Every host action keeps the invariant. -/
theorem HostEffect.inv {s t : State} {a : HostAction} (h : s.Inv) (e : HostEffect s a t) : t.Inv := by
  cases e with
  | get => exact h.reply _
  | getFault => exact (h.raise _ _).reply _
  | refused => exact h
  | illegal => exact h.raise _ _
  | command _ _ run => exact exec_inv h run
  | store _ _ len => exact h.writeReg len
  | setFault => exact h.raise _ _
  | rdb => exact h.reply _
  | rdbFault => exact (h.raise _ _).reply _
  | wrb idx => exact (OnlyBuf.writeByte .input _ s _ _ idx).inv h (Nat.le_refl _)
  | wrbFault => exact h.raise _ _
  | reset => exact h.resetBlock

/-- Settles O13: each field of the invariant read off the values of R900. -/
theorem resetMeetsTheInvariant : Obligations.ResetMeetsTheInvariant :=
  ⟨fun _ hp => resetWith_inv hp, resetWith_inv (by decide)⟩

/-- Settles O14: the inversion of the step, and one lemma for each thing a host action or a command can do. -/
theorem stepKeepsTheInvariant : Obligations.StepKeepsTheInvariant :=
  fun _ _ hs h => step_keeps State.Inv (fun _ rest hs => hs.setHost rest) (fun _ _ _ hs e => e.inv hs) hs h

end Sys2Proof.Machine
end

section
/-! SUPPORT. What a command, a host action and a step leave unchanged: the parameters (O17), the configuration but for
`CONFIGURE` and reset (O16), R131 (O15), and the results R312's table does not give a command (O18). -/
namespace Sys2Proof.Machine

/-! ## Frames of the procedures -/

/-- A procedure's own buffer apart, it changes nothing: so `t` is `s` with that buffer's bytes. -/
theorem OnlyBuf.exists_setBuf {b : Buf} {n : Nat} {s t : State} (h : OnlyBuf b n s t) : ∃ m, t = s.setBuf b m := by
  obtain ⟨m, rfl, -⟩ := h
  exact ⟨m, rfl⟩

theorem State.setBuf_readByte_other (s : State) (b c : Buf) (m : Memory) (i : Nat) (h : c ≠ b) :
    (s.setBuf b m).readByte c i = s.readByte c i := by
  simp [State.readByte, State.setBuf_buf_other s b c m h]

theorem State.setBuf_inBuf {s : State} {b : Buf} {m : Memory} (h : b ≠ .input) : (s.setBuf b m).inBuf = s.inBuf :=
  s.setBuf_buf_other b .input m h.symm

theorem State.setBuf_workBuf {s : State} {b : Buf} {m : Memory} (h : b ≠ .work) : (s.setBuf b m).workBuf = s.workBuf :=
  s.setBuf_buf_other b .work m h.symm

theorem State.setBuf_outBuf {s : State} {b : Buf} {m : Memory} (h : b ≠ .output) : (s.setBuf b m).outBuf = s.outBuf :=
  s.setBuf_buf_other b .output m h.symm

/-- `RASTER` writes `WORK`, `OUT` and their lengths (R701). -/
theorem State.raster_eq (s : State) :
    ∃ mw mo lw lo, s.raster = (((s.setBuf .work mw).setWorkLen lw).setBuf .output mo).setOutLen lo := by
  obtain ⟨mw, hw⟩ := (s.dither_onlyWork s.imageW s.imageH).exists_setBuf
  obtain ⟨mo, ho⟩ := (State.packImage_onlyOut ((s.dither s.imageW s.imageH).setWorkLen (BitVec.ofNat 32 s.imageBytes))
    .work s.imageW s.imageH).exists_setBuf
  exact ⟨mw, mo, _, _, by rw [State.raster, ho, hw]⟩

/-- Settles O18: the effects one by one, each a few named updates of the state. -/
theorem commandsWriteOnlyTheirResults : Obligations.CommandsWriteOnlyTheirResults := by
  intro i s t h
  simp only [SameBytes]
  rcases exec_cases h with ⟨c, rfl⟩ | e
  · simp
  cases e with
  | nop => simp
  | configure => simp
  | loadpreset => simp [stagePreset]
  | clamp => simp
  | thresh => simp
  | loadwork =>
    obtain ⟨m, hm⟩ := (s.copyImage_onlyWork s.imageBytes).exists_setBuf
    simp [hm, State.setBuf_inBuf, State.setBuf_outBuf, State.setBuf_readByte_other]
  | diffuse =>
    obtain ⟨m, hm⟩ := (s.diffuse_onlyWork (pixelOfWord s.pixOrig) (pixelOfWord s.pixQuant) s.posX.toNat s.posY.toNat
      s.imageW s.imageH).exists_setBuf
    simp [hm, State.setBuf_inBuf, State.setBuf_outBuf, State.setBuf_readByte_other]
  | dither =>
    obtain ⟨m, hm⟩ := (s.dither_onlyWork s.imageW s.imageH).exists_setBuf
    simp [hm, State.setBuf_inBuf, State.setBuf_outBuf, State.setBuf_readByte_other]
  | @pack src =>
    obtain ⟨m, hm⟩ := (s.packImage_onlyOut (packSource src) s.imageW s.imageH).exists_setBuf
    simp [hm, State.setBuf_inBuf, State.setBuf_workBuf, State.setBuf_readByte_other]
  | raster =>
    obtain ⟨mw, mo, lw, lo, hr⟩ := s.raster_eq
    simp [hr, State.setBuf_inBuf, State.setBuf_readByte_other]

/-! ## The parameters and the configuration along a step -/

theorem exec_params {i : Instr} {s t : State} (h : exec i s = .next t) : t.params = s.params := by
  obtain ⟨⟨hparams, -⟩, -⟩ := commandsWriteOnlyTheirResults i s t h
  exact hparams

theorem exec_cfg {i : Instr} {s t : State} (h : exec i s = .next t) (hi : i ≠ .configure) : t.cfg = s.cfg := by
  obtain ⟨-, hcfg, -⟩ := commandsWriteOnlyTheirResults i s t h
  exact hcfg hi

theorem HostEffect.params {a : HostAction} {s t : State} (e : HostEffect s a t) : t.params = s.params := by
  cases e with
  | command _ _ run => exact exec_params run
  | _ => simp [State.raiseAccess]

/-- A host action that changes the configuration is `CONFIGURE`'s word written to `CMD`, or a reset (R130, R900). -/
theorem HostEffect.cfg {a : HostAction} {s t : State} (e : HostEffect s a t) :
    t.cfg = s.cfg ∨ a = .set 0 configureWord ∨ a = .reset := by
  cases e with
  | @command w i _ _ word run =>
    by_cases hi : i = .configure
    · have hw : w = configureWord := by rw [← encode_of_decode word, hi]; decide
      exact .inr (.inl (by rw [hw]))
    · exact .inl (exec_cfg run hi)
  | reset => exact .inr (.inr rfl)
  | _ => exact .inl (by simp [State.raiseAccess])

/-- Every host action keeps the configuration legal: it leaves it, resets it, or derives it anew (R131). -/
theorem HostEffect.configInv {a : HostAction} {s t : State} (e : HostEffect s a t) (hp : s.params.legal)
    (hc : s.ConfigInv) : t.ConfigInv := by
  by_cases hkeep : t.cfg = s.cfg
  · exact hc.of_eq e.params hkeep
  cases e with
  | @command w i _ _ word run =>
    obtain rfl : i = .configure := not_not.mp fun hi => hkeep (exec_cfg run hi)
    rcases exec_cases run with ⟨c, rfl⟩ | e
    · exact hc.of_eq (by simp) (by simp)
    · cases e with
      | configure shape first den => exact newConfiguration_configInv hp shape first den
  | reset => exact (resetWith_configInv hp).of_eq rfl rfl
  | _ => exact absurd (by simp [State.raiseAccess]) hkeep

/-- Settles O17: no action writes the parameters. -/
theorem noStepChangesTheParameters : Obligations.NoStepChangesTheParameters := by
  intro s t h
  rcases step_cases h with ⟨-, rfl⟩ | ⟨a, rest, -, e⟩
  · rfl
  · exact e.params

/-- Settles O16: every host action but two leaves the configuration. -/
theorem onlyConfigureAndResetChangeTheConfiguration : Obligations.OnlyConfigureAndResetChangeTheConfiguration := by
  intro s t h hne
  rcases step_cases h with ⟨-, rfl⟩ | ⟨a, rest, hhost, e⟩
  · exact absurd rfl hne
  · rcases e.cfg with hsame | rfl | rfl
    · exact absurd hsame hne
    · exact ⟨rest, .inl hhost⟩
    · exact ⟨rest, .inr hhost⟩

/-- Settles O15: with legal parameters every step keeps the configuration legal. -/
theorem stepKeepsTheConfigurationLegal : Obligations.StepKeepsTheConfigurationLegal := by
  intro s t hp hc h
  rcases step_cases h with ⟨-, rfl⟩ | ⟨a, rest, -, e⟩
  · exact hc
  · exact e.configInv hp (hc.of_eq rfl rfl)

end Sys2Proof.Machine
end

section
/-! SUPPORT. The staging registers reach no command but `CONFIGURE` and `LOADPRESET` (R906, O19): every procedure of the
other eight commutes with replacing them. -/
namespace Sys2Proof.Machine

/-- A loop whose every turn commutes with `F` commutes with `F`. -/
theorem forRange_commute {α : Type} (F : α → α) (n : Nat) (f : Nat → α → α) (a : α)
    (h : ∀ k x, f k (F x) = F (f k x)) : forRange n f (F a) = F (forRange n f a) :=
  forRange_rel (fun x y => x = F y) n f f (F a) a rfl fun k _ x y hxy => by rw [hxy, h]

/-! ## The procedures with other staging registers -/

@[simp] theorem State.setStaged_imageW (s : State) (g : Staged) : (s.setStaged g).imageW = s.imageW := rfl
@[simp] theorem State.setStaged_imageH (s : State) (g : Staged) : (s.setStaged g).imageH = s.imageH := rfl
@[simp] theorem State.setStaged_imageBytes (s : State) (g : Staged) : (s.setStaged g).imageBytes = s.imageBytes := rfl
@[simp] theorem State.setStaged_packedBytes (s : State) (g : Staged) : (s.setStaged g).packedBytes = s.packedBytes := rfl
@[simp] theorem State.setStaged_threshold (s : State) (g : Staged) : (s.setStaged g).threshold = s.threshold := rfl
@[simp] theorem State.setStaged_divisor (s : State) (g : Staged) : (s.setStaged g).divisor = s.divisor := rfl
@[simp] theorem State.setStaged_weight (s : State) (g : Staged) (r c : Nat) :
    (s.setStaged g).weight r c = s.weight r c := rfl
@[simp] theorem State.setStaged_targetCol (s : State) (g : Staged) (x c : Nat) :
    (s.setStaged g).targetCol x c = s.targetCol x c := rfl
@[simp] theorem State.setStaged_setWorkLen (s : State) (g : Staged) (v : Word) :
    (s.setStaged g).setWorkLen v = (s.setWorkLen v).setStaged g := rfl
@[simp] theorem State.setStaged_setOutLen (s : State) (g : Staged) (v : Word) :
    (s.setStaged g).setOutLen v = (s.setOutLen v).setStaged g := rfl

@[simp] theorem State.setStaged_writeByte (s : State) (g : Staged) (b : Buf) (i : Nat) (v : Byte) :
    (s.setStaged g).writeByte b i v = (s.writeByte b i v).setStaged g := by
  cases b <;> rfl

@[simp] theorem State.setStaged_writeBytes (s : State) (g : Staged) (b : Buf) (i : Nat) (vs : List Byte) :
    (s.setStaged g).writeBytes b i vs = (s.writeBytes b i vs).setStaged g := by
  induction vs generalizing s i with
  | nil => rfl
  | cons v vs ih => rw [State.writeBytes, State.setStaged_writeByte, ih, State.writeBytes]

@[simp] theorem State.setStaged_readBytes (s : State) (g : Staged) (b : Buf) (i n : Nat) :
    (s.setStaged g).readBytes b i n = s.readBytes b i n := by
  simp only [State.readBytes, State.setStaged_readByte]

@[simp] theorem State.setStaged_readPixel (s : State) (g : Staged) (b : Buf) (w x y : Nat) :
    (s.setStaged g).readPixel b w x y = s.readPixel b w x y := by
  simp only [State.readPixel, State.setStaged_readByte]

@[simp] theorem State.setStaged_copyImage (s : State) (g : Staged) (n : Nat) :
    (s.setStaged g).copyImage n = (s.copyImage n).setStaged g := by
  rw [State.copyImage, State.setStaged_readBytes, State.setStaged_writeBytes, State.copyImage]

@[simp] theorem State.setStaged_diffuseCell (s : State) (g : Staged) (o q : Pixel) (x y w h r c : Nat) :
    (s.setStaged g).diffuseCell o q x y w h r c = (s.diffuseCell o q x y w h r c).setStaged g := by
  simp only [State.diffuseCell, State.setStaged_weight, State.setStaged_targetCol, State.setStaged_divisor,
    State.setStaged_params, State.setStaged_readPixel, State.setStaged_writeBytes]
  split <;> rfl

@[simp] theorem State.setStaged_diffuse (s : State) (g : Staged) (o q : Pixel) (x y w h : Nat) :
    (s.setStaged g).diffuse o q x y w h = (s.diffuse o q x y w h).setStaged g :=
  forRange_commute (State.setStaged · g) _ _ s fun r a =>
    forRange_commute (State.setStaged · g) _ _ a fun c b => b.setStaged_diffuseCell g o q x y w h r c

@[simp] theorem State.setStaged_ditherStep (s : State) (g : Staged) (w h x y : Nat) :
    (s.setStaged g).ditherStep w h x y = (s.ditherStep w h x y).setStaged g := by
  simp [State.ditherStep]

@[simp] theorem State.setStaged_dither (s : State) (g : Staged) (w h : Nat) :
    (s.setStaged g).dither w h = (s.dither w h).setStaged g := by
  rw [State.dither, State.setStaged_copyImage]
  exact forRange_commute (State.setStaged · g) _ _ _ fun y a =>
    forRange_commute (State.setStaged · g) _ _ a fun x b => b.setStaged_ditherStep g w h x y

/-- The packer inside a row with other staging registers. -/
def PackRow.setStaged (g : Staged) (t : PackRow) : PackRow := { t with st := t.st.setStaged g }

theorem packPixel_setStaged (src : Buf) (w y x : Nat) (g : Staged) (t : PackRow) :
    packPixel src w y x (t.setStaged g) = (packPixel src w y x t).setStaged g := by
  simp only [packPixel, PackRow.setStaged, State.setStaged_threshold, State.setStaged_readPixel, State.setStaged_writeByte]
  split <;> rfl

theorem flushRow_setStaged (w y : Nat) (g : Staged) (t : PackRow) :
    flushRow w y (t.setStaged g) = (flushRow w y t).setStaged g := by
  simp only [flushRow, PackRow.setStaged, State.setStaged_writeByte]
  split <;> rfl

theorem packRow_setStaged (src : Buf) (w y : Nat) (s : State) (g : Staged) :
    packRow src w y (s.setStaged g) = (packRow src w y s).setStaged g := by
  rw [packRow, packRow, ← flushRow_setStaged]
  exact congrArg (flushRow w y) (forRange_commute (PackRow.setStaged g) w _ { st := s, acc := 0, nb := 0, k := 0 }
    fun x t => packPixel_setStaged src w y x g t)

@[simp] theorem State.setStaged_packImage (s : State) (g : Staged) (src : Buf) (w h : Nat) :
    (s.setStaged g).packImage src w h = (s.packImage src w h).setStaged g :=
  forRange_commute (State.setStaged · g) _ _ s fun y a => packRow_setStaged src w y a g

@[simp] theorem State.setStaged_raster (s : State) (g : Staged) : (s.setStaged g).raster = s.raster.setStaged g := by
  simp [State.raster]

/-! ## The commands with other staging registers -/

theorem State.setStaged_raise (s : State) (g : Staged) (c : Cause) (opc : BitVec 8) :
    (s.setStaged g).raise c opc = (s.raise c opc).setStaged g := by
  rw [State.raise_eq, State.raise_eq]
  rfl

/-- A command's checks and effect with other staging registers, the checks being blind to them. -/
theorem State.setStaged_runCommand {s t e e' : State} {i : Instr} {checks : List (Bool × Cause)} (g : Staged)
    (he : e' = e.setStaged g) (h : s.runCommand i checks e = .next t) :
    (s.setStaged g).runCommand i checks e' = .next (t.setStaged g) := by
  rcases s.runCommand_cases t i checks e h with ⟨c, hc, rfl⟩ | ⟨hc, rfl⟩
  · rw [State.runCommand_fail _ _ _ _ c hc, State.setStaged_raise]
  · rw [State.runCommand_pass _ _ _ _ hc, he]

/-- Settles O19: the eight commands, each by its effect's commutation with `setStaged`. -/
theorem stagingReachesOnlyConfigure : Obligations.StagingReachesOnlyConfigure := by
  intro i s t g hconf hload h
  change exec i (s.setStaged g) = .next (t.setStaged g)
  cases i with
  | nop =>
    rw [exec_nop_eq] at h ⊢
    exact State.setStaged_runCommand g rfl h
  | configure => exact absurd rfl hconf
  | loadpreset n => exact absurd rfl (hload n)
  | clamp =>
    rw [exec_clamp_eq] at h ⊢
    exact State.setStaged_runCommand g rfl h
  | thresh =>
    rw [exec_thresh_eq] at h ⊢
    exact State.setStaged_runCommand g rfl h
  | loadwork =>
    rw [exec_loadwork_eq] at h ⊢
    exact State.setStaged_runCommand g (by simp) h
  | diffuse =>
    rw [exec_diffuse_eq] at h ⊢
    exact State.setStaged_runCommand g (by simp) h
  | dither =>
    rw [exec_dither_eq] at h ⊢
    exact State.setStaged_runCommand g (by simp) h
  | pack src =>
    rw [exec_pack_eq] at h ⊢
    exact State.setStaged_runCommand g (by simp) h
  | raster =>
    rw [exec_raster_eq] at h ⊢
    exact State.setStaged_runCommand g (s.setStaged_raster g) h

end Sys2Proof.Machine
end

section
/-! SUPPORT. The integer clamp is R400's clamp over the rationals, and `CLAMP` writes it (R403, O24). -/
namespace Sys2Proof.Machine

/-- How far a quotient of naturals lies above its floor: the remainder over the divisor (R400). -/
theorem natCast_div_sub_floor (n d : Nat) (hd : 0 < d) :
    (n : ℚ) / (d : ℚ) - ⌊(n : ℚ) / (d : ℚ)⌋ = ((n % d : Nat) : ℚ) / (d : ℚ) := by
  have hd' : (d : ℚ) ≠ 0 := Nat.cast_ne_zero.mpr hd.ne'
  have hn : (d : ℚ) * ((n / d : Nat) : ℚ) + ((n % d : Nat) : ℚ) = n := by exact_mod_cast Nat.div_add_mod n d
  rw [Rat.floor_natCast_div_natCast, ← Int.natCast_div, Int.cast_natCast, div_sub' hd', ← hn, add_sub_cancel_left]

/-- A remainder over its divisor compared with one half is twice the remainder compared with the divisor. -/
theorem natCast_div_lt_half (m d : Nat) (hd : 0 < d) : (m : ℚ) / (d : ℚ) < 1 / 2 ↔ 2 * m < d := by
  rw [div_lt_div_iff₀ (Nat.cast_pos.mpr hd) two_pos, one_mul, mul_comm]
  exact_mod_cast Iff.rfl

theorem half_lt_natCast_div (m d : Nat) (hd : 0 < d) : 1 / 2 < (m : ℚ) / (d : ℚ) ↔ d < 2 * m := by
  rw [div_lt_div_iff₀ two_pos (Nat.cast_pos.mpr hd), one_mul, mul_comm]
  exact_mod_cast Iff.rfl

theorem clampQ_of_gt (t : RoundTie) {v : ℚ} (h : 255 < v) : clampQ t v = 255 := by
  unfold clampQ
  exact if_pos h

theorem clampQ_of_neg (t : RoundTie) {v : ℚ} (h : v < 0) : clampQ t v = 0 := by
  unfold clampQ
  rw [if_neg (by linarith), if_pos h]

/-- The rounding of the integer clamp is R400's, for a quotient the clamp does not cut off. -/
theorem clampQ_natCast_div (t : RoundTie) (n d : Nat) (hd : 0 < d) (h : n ≤ 255 * d) :
    clampQ t ((n : ℚ) / (d : ℚ)) = roundTie t n d := by
  have hhigh : ¬ 255 < (n : ℚ) / (d : ℚ) := by
    rw [not_lt, div_le_iff₀ (Nat.cast_pos.mpr hd)]
    exact_mod_cast h
  have hneg : ¬ (n : ℚ) / (d : ℚ) < 0 := not_lt.mpr (by positivity)
  unfold clampQ
  rw [if_neg hhigh, if_neg hneg, natCast_div_sub_floor n d hd, Rat.floor_natCast_div_natCast]
  simp only [natCast_div_lt_half _ d hd, half_lt_natCast_div _ d hd, roundTie]
  by_cases hlow : 2 * (n % d) < d
  · rw [if_pos hlow, if_pos hlow]
    rfl
  by_cases hup : d < 2 * (n % d)
  · rw [if_neg hlow, if_neg hlow, if_pos hup, if_pos hup]
    rfl
  rw [if_neg hlow, if_neg hlow, if_neg hup, if_neg hup]
  cases t with
  | halfAway => rfl
  | halfEven => norm_cast

/-- The integer clamp is the clamp of R400 over the rationals, under either tie rule. -/
theorem clampRatio_eq_clampQ (t : RoundTie) (num : Int) (den : Nat) (hd : 0 < den) :
    (clampRatio t num den : ℤ) = clampQ t ((num : ℚ) / (den : ℚ)) := by
  have hdq : (0 : ℚ) < den := Nat.cast_pos.mpr hd
  unfold clampRatio
  split_ifs with hhigh hneg
  · have : 255 < (num : ℚ) / (den : ℚ) := by
      rw [lt_div_iff₀ hdq]
      exact_mod_cast hhigh
    exact (clampQ_of_gt t this).symm
  · have : (num : ℚ) / (den : ℚ) < 0 := div_neg_of_neg_of_pos (by exact_mod_cast hneg) hdq
    exact (clampQ_of_neg t this).symm
  · obtain ⟨n, rfl⟩ := Int.eq_ofNat_of_zero_le (not_lt.mp hneg)
    exact (clampQ_natCast_div t n den hd (by omega)).symm

/-- Settles O24: the check passes and the effect is the one write of `CLAMP_OUT`. -/
theorem clampCommandWritesTheClamp : Obligations.ClampCommandWritesTheClamp := by
  intro s hden
  have hpos : 0 < s.clampDen.toNat := Nat.pos_of_ne_zero hden
  have hne : s.clampDen ≠ 0 := fun h => hden (by rw [h]; rfl)
  have hword : clampRatio s.params.roundTie s.clampNum.toInt s.clampDen.toNat < 2 ^ 32 :=
    (clampRatio_le _ _ _ hpos).trans_lt (by decide)
  have hrun := exec_clamp_eq s
  rw [State.runCommand_pass _ _ _ _ (by simpa [firstCause] using hne)] at hrun
  refine ⟨_, hrun, ?_, rfl, fun b i => s.setClampOut_readByte _ b i⟩
  rw [State.setClampOut_clampOut, BitVec.toNat_ofNat, Nat.mod_eq_of_lt hword]
  exact clampRatio_eq_clampQ _ _ _ hpos

end Sys2Proof.Machine
end

section
/-! SUPPORT. The host port: the register map (O52, O60), the forbidden writes (O55) and the issue of a command (O5). -/
namespace Sys2Proof.Machine

/-- The named registers' indices are those of R103 to R127: every other index below 0x100 is unassigned (R129). -/
theorem regOfIndex_named_none {p : Params} {j : Nat} (hj : j < 0x100) (h : ∀ e ∈ namedRegs, j ≠ e.1) :
    regOfIndex p j = none := by
  rw [regOfIndex, if_pos hj, List.lookup_eq_none_iff]
  simpa using h

/-- A cell's offset lies inside its array (R122, R128). -/
theorem cellOffset_lt {p : Params} {r c : Nat} (hr : r < p.kmaxRows) (hc : c < p.kmaxCols) :
    cellOffset p r c < p.kernelCells :=
  calc r * p.kmaxCols + c < (r + 1) * p.kmaxCols := by rw [Nat.succ_mul]; omega
    _ ≤ p.kmaxRows * p.kmaxCols := Nat.mul_le_mul_right _ hr

/-- Settles O52: a cell's offset is below the number of cells, which is at most 256, so the two arrays do not meet. -/
theorem registerMapPlacesTheKernelCells : Obligations.RegisterMapPlacesTheKernelCells := by
  intro p hp
  obtain ⟨-, -, -, -, -, hcells⟩ := hp
  have hdef : p.kmaxRows * p.kmaxCols = p.kernelCells := rfl
  rw [hdef] at hcells ⊢
  refine ⟨fun r c hr hc => ?_, fun j hj => ?_⟩
  · have hlt := cellOffset_lt hr hc
    have hk : 0x100 + r * p.kmaxCols + c = 0x100 + cellOffset p r c := Nat.add_assoc _ _ _
    have hk' : 0x200 + r * p.kmaxCols + c = 0x200 + cellOffset p r c := Nat.add_assoc _ _ _
    rw [hk, hk']
    generalize cellOffset p r c = k at hlt
    constructor
    · rw [regOfIndex, if_neg (by omega), if_pos (by omega), Nat.add_sub_cancel_left]
    · rw [regOfIndex, if_neg (by omega), if_neg (by omega), if_pos (by omega), Nat.add_sub_cancel_left]
  · by_cases hlow : j < 0x100
    · refine regOfIndex_named_none hlow fun e he => ?_
      have : e.1 < 0x00E ∨ (0x010 ≤ e.1 ∧ e.1 < 0x015) ∨ (0x020 ≤ e.1 ∧ e.1 < 0x025) := by
        revert e
        decide
      omega
    · rw [regOfIndex, if_neg hlow, if_neg (by omega), if_neg (by omega)]

/-- Settles O60: the map's 24 rows one by one, and the kernel cells by the definition of their offset. -/
theorem registerMapPlacesTheNamedRegisters : Obligations.RegisterMapPlacesTheNamedRegisters := by
  intro s
  refine ⟨fun e he => ?_, fun k => ⟨rfl, rfl⟩, fun r c => ⟨rfl, rfl⟩⟩
  fin_cases he <;> exact ⟨rfl, rfl, rfl⟩

/-- A write R706 forbids is a fault and nothing else (R808). -/
theorem hostSet_forbidden {s : State} {j : Nat} {v : Word} (h : ForbiddenSet s.params j v) :
    hostSet j v s = .next s.raiseAccess := by
  rcases h with hnone | ⟨r, hr, hro⟩ | ⟨hin, hcap⟩
  · simp only [hostSet, hnone]
  · simp only [hostSet, hr, hostStore, hro]
  · simp [hostSet, hin, hostStore, accessOf, hcap]

/-- Settles O55: the three forbidden writes end in the one fault of R808. -/
theorem forbiddenSetFaults : Obligations.ForbiddenSetFaults := by
  intro s j v rest hhost hbad
  rw [step_action hhost]
  exact hostSet_forbidden hbad

/-- The write of a legal word to `CMD` runs its command (R103, R703). -/
theorem hostSet_cmd {s : State} {w : Word} {i : Instr} (clean : s.clean) (word : decode w = .ok i) :
    hostSet 0 w s = exec i s := by
  have hreg : regOfIndex s.params 0 = some .cmd := rfl
  simp only [hostSet, hreg, hostStore, accessOf, issueCommand, clean, word, Bool.false_eq_true, if_false]

/-- A word's own bits make the word (R306). -/
theorem tableWord_toNat (w : Word) : tableWord 32 w.toNat = w := by
  rw [tableWord, Nat.mod_eq_of_lt w.isLt, BitVec.ofNat_toNat, BitVec.setWidth_eq]

/-- Settles O5: the second half is the first, for the queue `withFetchWord` makes. -/
theorem stepRunsTheDecodedCommand : Obligations.StepRunsTheDecodedCommand := by
  have hrun : ∀ (s : State) (w : Word) (i : Instr) (rest : List HostAction),
      s.host = .set 0 w :: rest → s.clean → decode w = .ok i → step s = exec i (s.setHost rest) :=
    fun s w i rest hhost clean word => (step_action hhost).trans (hostSet_cmd clean word)
  refine ⟨hrun, fun s w i clean word => ?_⟩
  rw [State.withFetchWord, tableWord_toNat]
  exact hrun _ w i s.host rfl clean word

end Sys2Proof.Machine
end

section
/-! SUPPORT. The host's buffer accesses: `RDB` (R211, R707, O57) and `WRB` (R212, R708, O56). -/
namespace Sys2Proof.Machine

/-- A reply given after fault entry is the same as one given before it: fault entry reads and writes `STATUS` only
(R811). -/
theorem State.raise_reply (s : State) (c : Cause) (opc : BitVec 8) (r : HostReply) :
    (s.raise c opc).reply r = (s.reply r).raise c opc := by
  rw [State.raise_eq, State.raise_eq]
  rfl

theorem hostRdb_valid {s : State} {b : Buf} {i : Nat} (idx : i < bufCap s.params b) (valid : i < s.readableLen b) :
    hostRdb b i s = .next (s.reply (.byte (s.readByte b i))) := by
  rw [hostRdb, if_neg (not_le.mpr idx), if_pos valid]

theorem hostRdb_undefined {s : State} {b : Buf} {i : Nat} (idx : i < bufCap s.params b) (stale : s.readableLen b ≤ i) :
    hostRdb b i s = .refused (.undefinedByte b i) := by
  rw [hostRdb, if_neg (not_le.mpr idx), if_neg (not_lt.mpr stale)]

theorem hostRdb_beyond {s : State} {b : Buf} {i : Nat} (idx : bufCap s.params b ≤ i) :
    hostRdb b i s = .next ((s.reply (.byte 0)).raise .illegalAccess 0xFF) := by
  rw [hostRdb, if_pos idx, State.raiseAccess, State.raise_reply]

theorem hostWrb_input {s : State} {i : Nat} {v : Byte} (idx : i < s.params.imageCap) :
    hostWrb .input i v s = .next (s.writeByte .input i v) := by
  rw [hostWrb, if_pos ⟨rfl, idx⟩]

theorem hostWrb_forbidden {s : State} {b : Buf} {i : Nat} {v : Byte} (bad : ¬ (b = .input ∧ i < s.params.imageCap)) :
    hostWrb b i v s = .next s.raiseAccess := by
  rw [hostWrb, if_neg bad]

/-- Settles O57: the three branches of `RDB`, for the state with the action taken from the queue. -/
theorem rdbHasThreeOutcomes : Obligations.RdbHasThreeOutcomes := by
  intro s b i rest hhost valid
  have hvalid : (s.setHost rest).readableLen b = valid := by cases b <;> rfl
  rw [step_action hhost]
  refine ⟨fun idx hi => ?_, fun idx hi => hostRdb_undefined idx (hvalid.trans_le hi), fun idx => hostRdb_beyond idx⟩
  have hrun := hostRdb_valid (s := s.setHost rest) idx (hi.trans_eq hvalid.symm)
  rwa [State.setHost_readByte] at hrun

/-- Settles O56: the write is one `writeByte` of `IN`, read back byte by byte; any other `WRB` is fault entry. -/
theorem wrbStoresOneInputByte : Obligations.WrbStoresOneInputByte := by
  intro s b i v rest hhost
  rw [step_action hhost]
  refine ⟨?_, fun bad => hostWrb_forbidden bad⟩
  rintro rfl idx
  have hread := fun c j => (s.setHost rest).readByte_writeByte .input c i j v
  refine ⟨_, hostWrb_input idx, ?_, fun j hj => ?_, fun j => ?_, fun j => ?_, rfl⟩
  · rw [hread, if_pos ⟨rfl, rfl⟩]
  · rw [hread, if_neg fun h => hj h.2, State.setHost_readByte]
  · rw [hread, if_neg (by simp), State.setHost_readByte]
  · rw [hread, if_neg (by simp), State.setHost_readByte]

end Sys2Proof.Machine
end

section
/-! SUPPORT. The image commands with their checks passed (R803, R804, R810), the frame of a command that writes `WORK`
and its length, and `LOADWORK` (R557, O34). -/
namespace Sys2Proof.Machine

/-! ## Checks passed -/

/-- The size and length checks pass on an image that is ready (R803, R804). -/
theorem State.firstCause_imageReady {s : State} {len : Word} (h : s.imageReady len) :
    firstCause [(s.badDimension, .badDimension), (s.badLength len, .badLength)] = none := by
  obtain ⟨size, hlen⟩ := h
  simp [firstCause, s.badDimension_eq_false.mpr size, (s.badLength_eq_false len).mpr hlen]

/-- The length register of an image that is ready is the image's length as a word (R804). -/
theorem State.ofNat_imageBytes {s : State} {len : Word} (h : s.imageReady len) :
    BitVec.ofNat 32 s.imageBytes = len := by
  rw [State.imageBytes, ← h.2, BitVec.ofNat_toNat, BitVec.setWidth_eq]

theorem exec_loadwork_ready {s : State} (h : s.imageReady s.inLen) :
    exec .loadwork s = .next ((s.copyImage (4 * s.imageW * s.imageH)).setWorkLen s.inLen) := by
  rw [exec_loadwork_eq, State.runCommand_pass _ _ _ _ (State.firstCause_imageReady h), State.ofNat_imageBytes h,
    State.imageBytes]

theorem exec_dither_ready {s : State} (h : s.imageReady s.inLen) :
    exec .dither s = .next ((s.dither s.imageW s.imageH).setWorkLen s.inLen) := by
  rw [exec_dither_eq, State.runCommand_pass _ _ _ _ (State.firstCause_imageReady h), State.ofNat_imageBytes h]

theorem exec_pack_ready {s : State} {src : Nat} (hsrc : src < 2) (h : s.imageReady (s.packLength src)) :
    exec (.pack src) s =
      .next ((s.packImage (packSource src) s.imageW s.imageH).setOutLen (BitVec.ofNat 32 s.packedBytes)) := by
  have hsel : decide (1 < src) = false := decide_eq_false (by omega)
  rw [exec_pack_eq, State.runCommand_pass _ _ _ _ (by rw [hsel]; exact State.firstCause_imageReady h)]

/-! ## A procedure on `WORK` and the new `WORK_LEN` -/

/-- `WORK` and `WORK_LEN` apart, nothing changes (R222). -/
theorem OnlyBuf.setWorkLen_frame {n : Nat} {s t : State} (h : OnlyBuf .work n s t) (v : Word) :
    t.setWorkLen v = { s with workBuf := (t.setWorkLen v).workBuf, workLen := (t.setWorkLen v).workLen } ∧
      SameBytes .input s (t.setWorkLen v) ∧ SameBytes .output s (t.setWorkLen v) := by
  refine ⟨?_, fun i => ?_, fun i => ?_⟩
  · obtain ⟨m, rfl⟩ := h.exists_setBuf
    rfl
  · rw [State.setWorkLen_readByte, h.readByte i (.inl (by decide))]
  · rw [State.setWorkLen_readByte, h.readByte i (.inl (by decide))]

/-- Settles O34: the effect is the copy, whose bytes are known one by one, and the write of `WORK_LEN`. -/
theorem loadworkCopiesTheImage : Obligations.LoadworkCopiesTheImage := by
  intro s ready
  refine ⟨_, exec_loadwork_ready ready, rfl, fun j hj => ?_, fun j hj => ?_,
    (s.copyImage_onlyWork _).setWorkLen_frame s.inLen⟩
  · rw [State.setWorkLen_readByte, State.copyImage_readByte, if_pos hj]
  · rw [State.setWorkLen_readByte, State.copyImage_readByte, if_neg (not_lt.mpr hj)]

end Sys2Proof.Machine
end

section
/-! SUPPORT. The diffuser reaches neither an alpha byte (R554) nor, under a legal configuration, a pixel at or before its
position (R460); so the dither pass leaves each pixel as its own step stored it (R602, R605, O42). -/
namespace Sys2Proof.Machine

/-! ## What the diffuser spares -/

/-- What every cell's update keeps, and the start has, the diffusion has at its end; on the way only the image in `WORK`
has changed. -/
theorem State.diffuse_induct (P : State → Prop) (s : State) (o q : Pixel) (x y w h : Nat) (start : P s)
    (cell : ∀ r c t, OnlyBuf .work (4 * w * h) s t → P t → P (t.diffuseCell o q x y w h r c)) :
    P (s.diffuse o q x y w h) := by
  have key : OnlyBuf .work (4 * w * h) s (s.diffuse o q x y w h) ∧ P (s.diffuse o q x y w h) :=
    forRange_keeps (fun t => OnlyBuf .work (4 * w * h) s t ∧ P t) _ _ s ⟨OnlyBuf.refl _ _ _, start⟩ fun r _ a ha =>
      forRange_keeps (fun t => OnlyBuf .work (4 * w * h) s t ∧ P t) _ _ a ha fun c _ t ht =>
        ⟨ht.1.trans (t.diffuseCell_onlyWork o q x y w h r c), cell r c t ht.1 ht.2⟩
  exact key.2

/-- Byte 3 of a pixel is its alpha, which no cell's update writes (R204, R554). -/
theorem State.diffuseCell_alpha (s : State) (o q : Pixel) (x y w h r c : Nat) {j : Nat} (hj : j % 4 = 3) :
    (s.diffuseCell o q x y w h r c).readByte .work j = s.readByte .work j := by
  rw [State.diffuseCell_readByte]
  refine if_neg fun ⟨_, _, hlo, hhi⟩ => ?_
  rw [pixelIndex] at hlo hhi
  omega

theorem State.diffuse_alpha (s : State) (o q : Pixel) (x y w h : Nat) {j : Nat} (hj : j % 4 = 3) :
    (s.diffuse o q x y w h).readByte .work j = s.readByte .work j :=
  s.diffuse_induct (fun t => t.readByte .work j = s.readByte .work j) o q x y w h rfl
    fun r c t _ ht => (t.diffuseCell_alpha o q x y w h r c hj).trans ht

/-- A cell of row 0 with a weight aims to the right of the position (R451, R460). -/
theorem State.ConfigInv.targetCol_row0 {s : State} (hc : s.ConfigInv) (x : Nat) {c : Nat} (hw : s.weight 0 c ≠ 0) :
    (x : Int) < s.targetCol x c := by
  obtain ⟨c0, -, -, hbefore, hanchor⟩ := hc.anchor
  have : c0 ≤ c := not_lt.mp fun hlt => hw (hbefore c hlt)
  rw [State.targetCol, hanchor]
  omega

/-- A pixel right of another in its row, or in a row below it, stands after it in its buffer (R204). -/
theorem pixelIndex_add_four_le {w x y tx ty : Nat} (hx : x < w) (h : y < ty ∨ (y = ty ∧ x < tx)) :
    pixelIndex w x y + 4 ≤ pixelIndex w tx ty := by
  rw [pixelIndex, pixelIndex]
  rcases h with hrow | ⟨rfl, hcol⟩
  · have : (y + 1) * w ≤ ty * w := Nat.mul_le_mul_right w hrow
    rw [Nat.succ_mul] at this
    omega
  · omega

/-- Under a legal configuration every cell that is not skipped aims at a pixel after the position (R460). -/
theorem State.ConfigInv.target_after {s : State} (hc : s.ConfigInv) {x y w h r c : Nat} (hx : x < w)
    (hs : skipCell (s.weight r c) (s.targetCol x c) (targetRow y r) w h = false) :
    pixelIndex w x y + 4 ≤ pixelIndex w (s.targetCol x c).toNat (targetRow y r).toNat := by
  obtain ⟨hw, -⟩ := (skipCell_eq_false _ _ _ _ _).mp hs
  refine pixelIndex_add_four_le hx ?_
  rw [targetRow]
  rcases Nat.eq_zero_or_pos r with rfl | hr
  · have := hc.targetCol_row0 x hw
    exact .inr (by omega)
  · exact .inl (by omega)

/-- Under a legal configuration no byte of the position's pixel or of one before it changes (R460). -/
theorem State.ConfigInv.diffuse_visited {s : State} (hc : s.ConfigInv) (o q : Pixel) {x y w : Nat} (h : Nat) (hx : x < w)
    {j : Nat} (hj : j < pixelIndex w x y + 4) : (s.diffuse o q x y w h).readByte .work j = s.readByte .work j := by
  refine s.diffuse_induct (fun t => t.readByte .work j = s.readByte .work j) o q x y w h rfl fun r c t hst ht => ?_
  rw [State.diffuseCell_readByte, if_neg, ht]
  rintro ⟨hs, -, hlo, -⟩
  have := (hc.of_eq hst.params hst.cfg).target_after hx hs
  omega

/-! ## The step at a pixel -/

/-- A pixel's bytes written to a buffer read back as the pixel (R204). -/
theorem State.readPixel_writeBytes_pixelBytes (s : State) (b : Buf) (w x y : Nat) (p : Pixel) :
    (s.writeBytes b (pixelIndex w x y) (pixelBytes p)).readPixel b w x y = p := by
  simp [State.readPixel, State.readByte_writeBytes, pixelBytes]

/-- Two states with the same four bytes of a pixel have the same pixel. -/
theorem State.readPixel_congr {s t : State} {b : Buf} {w x y : Nat}
    (h : ∀ k, k < 4 → t.readByte b (pixelIndex w x y + k) = s.readByte b (pixelIndex w x y + k)) :
    t.readPixel b w x y = s.readPixel b w x y := by
  have h0 := h 0 (by decide)
  rw [Nat.add_zero] at h0
  simp only [State.readPixel, h0, h 1 (by decide), h 2 (by decide), h 3 (by decide)]

/-- The step stores the thresholded pixel at its position (R602). -/
theorem State.ditherStep_readPixel (s : State) (w h x y : Nat) :
    (s.ditherStep w h x y).readPixel .work w x y = thresholdPixel s.threshold (s.readPixel .work w x y) :=
  State.readPixel_writeBytes_pixelBytes ..

/-- Off its own pixel the step leaves the bytes as the diffusion left them (R602). -/
theorem State.ditherStep_readByte_other (s : State) (w h x y : Nat) {j : Nat}
    (hj : j < pixelIndex w x y ∨ pixelIndex w x y + 4 ≤ j) :
    (s.ditherStep w h x y).readByte .work j =
      (s.diffuse (s.readPixel .work w x y) (thresholdPixel s.threshold (s.readPixel .work w x y)) x y w h).readByte
        .work j := by
  simp only [State.ditherStep, State.readByte_writeBytes]
  exact if_neg fun ⟨_, hlo, hhi⟩ => by
    simp only [pixelBytes, List.length_cons, List.length_nil] at hhi
    omega

/-- Under a legal configuration the step leaves every pixel before its own as it was (R460, R602). -/
theorem State.ConfigInv.ditherStep_visited {s : State} (hc : s.ConfigInv) {w x y : Nat} (h : Nat) (hx : x < w) {j : Nat}
    (hj : j < pixelIndex w x y) : (s.ditherStep w h x y).readByte .work j = s.readByte .work j := by
  rw [s.ditherStep_readByte_other w h x y (.inl hj), hc.diffuse_visited _ _ h hx (by omega)]

/-- The step changes no alpha byte: the diffuser spares it and the thresholder passes it through (R503, R554). -/
theorem State.ditherStep_alpha (s : State) (w h x y : Nat) {j : Nat} (hj : j % 4 = 3) :
    (s.ditherStep w h x y).readByte .work j = s.readByte .work j := by
  by_cases hown : j = pixelIndex w x y + 3
  · rw [hown]
    have hA : ((s.ditherStep w h x y).readPixel .work w x y).A = (s.readPixel .work w x y).A := by
      rw [s.ditherStep_readPixel, thresholdPixel_alpha]
    exact hA
  · rw [s.ditherStep_readByte_other w h x y (by rw [pixelIndex] at hown ⊢; omega), s.diffuse_alpha _ _ x y w h hj]

/-! ## The pass -/

/-- An invariant of the pass that counts the visited pixels in raster order: it holds of 0 at the start and of all of them
at the end; on the way only the image in `WORK` has changed (R601). -/
theorem State.ditherPass_induct (P : Nat → State → Prop) (s : State) (w h : Nat) (start : P 0 s)
    (turn : ∀ x y t, x < w → y < h → OnlyBuf .work (4 * w * h) s t → P (y * w + x) t →
      P (y * w + x + 1) (t.ditherStep w h x y)) : P (h * w) (s.ditherPass w h) := by
  have key : OnlyBuf .work (4 * w * h) s (s.ditherPass w h) ∧ P (h * w) (s.ditherPass w h) :=
    forRange_counts (fun y t => OnlyBuf .work (4 * w * h) s t ∧ P (y * w) t) h _ s
      ⟨OnlyBuf.refl _ _ _, by rwa [Nat.zero_mul]⟩ fun y hy a ha => by
        rw [Nat.succ_mul y w]
        exact forRange_counts (fun x t => OnlyBuf .work (4 * w * h) s t ∧ P (y * w + x) t) w _ a ha fun x hx t ht =>
          ⟨ht.1.trans (t.ditherStep_onlyWork w h x y hx hy), turn x y t hx hy ht.1 ht.2⟩
  exact key.2

/-- The pass changes no alpha byte (R605). -/
theorem State.ditherPass_alpha (s : State) (w h : Nat) {j : Nat} (hj : j % 4 = 3) :
    (s.ditherPass w h).readByte .work j = s.readByte .work j :=
  s.ditherPass_induct (fun _ t => t.readByte .work j = s.readByte .work j) w h rfl
    fun x y t _ _ _ ht => (t.ditherStep_alpha w h x y hj).trans ht

/-- The pixel is one the thresholder answers (R502). -/
abbrev Pixel.isBlackOrWhite (p : Pixel) : Prop := p.isBlack ∨ p.isWhite

theorem thresholdPixel_isBlackOrWhite (thr : Nat) (p : Pixel) : (thresholdPixel thr p).isBlackOrWhite := by
  rcases thresholdPixel_cases thr p with ⟨-, h⟩ | ⟨-, h⟩
  · exact .inl (by simp [h])
  · exact .inr (by simp [h])

/-- Under a legal configuration the pass leaves every pixel black or white: each is so once its step stored it, and no
later step changes it (R605). -/
theorem State.ConfigInv.ditherPass_isBlackOrWhite {s : State} (hc : s.ConfigInv) {w h x y : Nat} (hx : x < w)
    (hy : y < h) : ((s.ditherPass w h).readPixel .work w x y).isBlackOrWhite := by
  refine s.ditherPass_induct
    (fun k t => ∀ x y, y * w + x < k → (t.readPixel .work w x y).isBlackOrWhite) w h
    (fun x y hk => absurd hk (Nat.not_lt_zero _)) (fun cx cy t hcx hcy hst ht x y hk => ?_) x y ?_
  · rcases Nat.lt_succ_iff_lt_or_eq.mp hk with hbefore | hown
    · have hsame := State.readPixel_congr (b := .work) (w := w) (x := x) (y := y) fun k hk4 =>
        (hc.of_eq hst.params hst.cfg).ditherStep_visited h hcx (y := cy)
          (show pixelIndex w x y + k < pixelIndex w cx cy by rw [pixelIndex, pixelIndex]; omega)
      rw [hsame]
      exact ht x y hbefore
    · have hpix : (t.ditherStep w h cx cy).readPixel .work w x y = (t.ditherStep w h cx cy).readPixel .work w cx cy := by
        simp only [State.readPixel, pixelIndex, hown]
      rw [hpix, State.ditherStep_readPixel]
      exact thresholdPixel_isBlackOrWhite _ _
  · calc y * w + x < (y + 1) * w := by rw [Nat.succ_mul]; omega
      _ ≤ h * w := Nat.mul_le_mul_right w hy

/-- Settles O42: the copy brings the alphas of `IN`, the pass keeps them and leaves every pixel black or white. -/
theorem ditherLeavesBlackAndWhite : Obligations.DitherLeavesBlackAndWhite := by
  intro s hc ready
  have hcopy := s.copyImage_onlyWork (4 * s.imageW * s.imageH)
  have honly := s.dither_onlyWork s.imageW s.imageH
  refine ⟨_, exec_dither_ready ready, rfl, fun x y hx hy => ⟨?_, ?_⟩, fun j hj => ?_, honly.setWorkLen_frame s.inLen⟩
  · exact (hc.of_eq hcopy.params hcopy.cfg).ditherPass_isBlackOrWhite hx hy
  · have hidx := pixelIndex_bound s.imageW s.imageH x y hx hy
    have halpha : (pixelIndex s.imageW x y + 3) % 4 = 3 := by rw [pixelIndex]; omega
    simp only [State.readPixel, State.setWorkLen_readByte, State.dither]
    rw [State.ditherPass_alpha _ _ _ halpha, State.copyImage_readByte, if_pos (by omega)]
  · rw [State.setWorkLen_readByte, honly.readByte j (.inr hj)]

end Sys2Proof.Machine
end

section
/-! SUPPORT. The packer bit by bit: a row's accumulator, its written bytes and its flush (R650 to R653), and `PACK` (R654,
O47). -/
namespace Sys2Proof.Machine

/-! ## Reads of the source through a write of `OUT` -/

theorem OnlyBuf.readPixel_other {b c : Buf} {n : Nat} {s t : State} (h : OnlyBuf b n s t) (hc : c ≠ b) (w x y : Nat) :
    t.readPixel c w x y = s.readPixel c w x y := by
  simp only [State.readPixel, fun i => h.readByte i (.inl hc)]

theorem OnlyBuf.threshold {b : Buf} {n : Nat} {s t : State} (h : OnlyBuf b n s t) : t.threshold = s.threshold := by
  rw [State.threshold, h.cfg, State.threshold]

/-- Whether pixel `(x, y)` of the source is dark: the bit the packer gives it (R501, R650). -/
def State.darkAt (s : State) (src : Buf) (w x y : Nat) : Bool := isDark s.threshold (s.readPixel src w x y)

theorem OnlyBuf.darkAt {n : Nat} {s t : State} (h : OnlyBuf .output n s t) {src : Buf} (hsrc : src ≠ .output)
    (w x y : Nat) : t.darkAt src w x y = s.darkAt src w x y := by
  rw [State.darkAt, State.darkAt, h.threshold, h.readPixel_other hsrc]

/-- The bits of a row after byte `k` of it was written: the byte's own, and the others as before (R205). -/
theorem State.outBit_writeByte (s : State) (w x y k : Nat) (v : Byte) :
    (s.writeByte .output (y * bytesPerRow w + k) v).outBit w x y =
      if x / 8 = k then v.getLsbD (7 - x % 8) else s.outBit w x y := by
  rw [State.outBit, State.readByte_writeByte]
  by_cases hk : x / 8 = k
  · rw [if_pos ⟨rfl, by rw [hk]⟩, if_pos hk]
  · rw [if_neg fun h => hk (Nat.add_left_cancel h.2), if_neg hk, State.outBit]

/-! ## A row -/

/-- The row of a source with dark bits `d` after `x` pixels: the written bytes hold the first `8 · k` bits, the earliest
the most significant, and the accumulator the last `nb`, the latest the least significant (R650, R651). -/
structure PackedBits (d : Nat → Bool) (w y x : Nat) (t : PackRow) : Prop where
  /-- The bits taken so far are `8 · k + nb`. -/
  count : PackCount x t
  /-- The written bytes. -/
  written : ∀ j, j < 8 * t.k → t.st.outBit w j y = d j
  /-- The waiting bits. -/
  waiting : ∀ i, t.acc.testBit i = (decide (i < t.nb) && d (x - 1 - i))

/-- One bit shifted into the accumulator's low end (R650). -/
theorem testBit_shiftIn (acc : Nat) (b : Bool) (i : Nat) :
    (2 * acc + if b then 1 else 0).testBit i = if i = 0 then b else acc.testBit (i - 1) := by
  cases i with
  | zero => cases b <;> simp [Nat.testBit_zero]
  | succ i => cases b <;> simp [Nat.testBit_succ, Nat.mul_add_div]

/-- A pixel's turn keeps the row's bits, its own among them. -/
theorem PackedBits.packPixel {d : Nat → Bool} {src : Buf} {w y x : Nat} {t : PackRow} (h : PackedBits d w y x t)
    (hd : t.st.darkAt src w x y = d x) : PackedBits d w y (x + 1) (packPixel src w y x t) := by
  have hcount := packPixel_count src w y x t h.count
  obtain ⟨⟨hx, hnb⟩, hwritten, hwaiting⟩ := h
  rw [State.darkAt] at hd
  have hacc : ∀ i, (2 * t.acc + if d x then 1 else 0).testBit i = (decide (i < t.nb + 1) && d (x + 1 - 1 - i)) := by
    intro i
    rw [testBit_shiftIn]
    cases i with
    | zero => simp
    | succ i => simp [hwaiting, show x - (i + 1) = x - 1 - i by omega]
  simp only [Machine.packPixel, hd] at hcount ⊢
  generalize (2 * t.acc + if d x = true then 1 else 0) = acc at hacc hcount ⊢
  by_cases hfull : t.nb + 1 = 8
  · simp only [if_pos hfull] at hcount ⊢
    refine ⟨hcount, fun j hj => ?_, fun i => by simp⟩
    dsimp only at hj ⊢
    rw [State.outBit_writeByte]
    split_ifs with hk
    · have hlast : 7 - j % 8 < t.nb + 1 := by omega
      rw [BitVec.getLsbD_ofNat, hacc, decide_eq_true (by omega), decide_eq_true hlast, Bool.true_and, Bool.true_and]
      congr 1
      omega
    · exact hwritten j (by omega)
  · simp only [if_neg hfull] at hcount ⊢
    exact ⟨hcount, hwritten, hacc⟩

/-- The flush writes the waiting bits and pads them with zeros (R650, R652). -/
theorem PackedBits.flushRow {d : Nat → Bool} {w y : Nat} {t : PackRow} (h : PackedBits d w y w t) {x : Nat}
    (hx : x < 8 * bytesPerRow w) : (flushRow w y t).outBit w x y = (decide (x < w) && d x) := by
  obtain ⟨⟨hw, hnb⟩, hwritten, hwaiting⟩ := h
  rw [bytesPerRow] at hx
  simp only [Machine.flushRow]
  by_cases hrest : 0 < t.nb
  · rw [if_pos hrest, State.outBit_writeByte]
    split_ifs with hk
    · rw [BitVec.getLsbD_ofNat, Nat.testBit_mul_two_pow, hwaiting]
      by_cases hin : x < w
      · rw [show w - 1 - (7 - x % 8 - (8 - t.nb)) = x by omega]
        simp [hin, show 7 - x % 8 < 8 by omega, show 8 - t.nb ≤ 7 - x % 8 by omega,
          show 7 - x % 8 - (8 - t.nb) < t.nb by omega]
      · simp [hin, show ¬ 8 - t.nb ≤ 7 - x % 8 by omega]
    · rw [hwritten x (by omega), decide_eq_true (by omega), Bool.true_and]
  · rw [if_neg hrest, hwritten x (by omega), decide_eq_true (by omega), Bool.true_and]

/-- One row of the packer: each pixel's bit, and zeros from the row's end to the end of its last byte (R651, R652). -/
theorem packRow_outBit {src : Buf} (hsrc : src ≠ .output) {w h y x : Nat} (hy : y < h) (s : State)
    (hx : x < 8 * bytesPerRow w) : (packRow src w y s).outBit w x y = (decide (x < w) && s.darkAt src w x y) := by
  have key := forRange_counts
    (fun n (t : PackRow) =>
      OnlyBuf .output (bytesPerRow w * h) s t.st ∧ PackedBits (fun x => s.darkAt src w x y) w y n t) w
    (packPixel src w y) { st := s, acc := 0, nb := 0, k := 0 }
    ⟨OnlyBuf.refl _ _ _, ⟨rfl, Nat.succ_pos 7⟩, fun j hj => absurd hj (Nat.not_lt_zero j), fun i => by simp⟩
    fun n hn t ⟨honly, hbits⟩ => by
      have hdark : t.st.darkAt src w n y = s.darkAt src w n y := honly.darkAt hsrc w n y
      exact ⟨honly.trans (packPixel_onlyOut src w h y n hy hn t hbits.count), hbits.packPixel hdark⟩
  exact key.2.flushRow hx

/-- A row leaves the bytes of the rows above it as they were (R651). -/
theorem packRow_readByte_before (src : Buf) (w y : Nat) (s : State) {j : Nat} (hj : j < y * bytesPerRow w) :
    (packRow src w y s).readByte .output j = s.readByte .output j := by
  have hwrite : ∀ (t : State) (k : Nat) (v : Byte),
      (t.writeByte .output (y * bytesPerRow w + k) v).readByte .output j = t.readByte .output j :=
    fun t k v => by rw [State.readByte_writeByte, if_neg (by omega)]
  have hloop := forRange_keeps (fun t : PackRow => t.st.readByte .output j = s.readByte .output j) w
    (packPixel src w y) { st := s, acc := 0, nb := 0, k := 0 } rfl fun x _ t ht => by
      simp only [packPixel]
      split
      · exact (hwrite _ _ _).trans ht
      · exact ht
  simp only [packRow, flushRow]
  split
  · exact (hwrite _ _ _).trans hloop
  · exact hloop

/-! ## The image -/

/-- The whole of `pack`: each pixel's bit, and zeros from each row's end to the end of its last byte (R205, R650 to
R653). -/
theorem State.packImage_outBit (s : State) {src : Buf} (hsrc : src ≠ .output) {w h x y : Nat} (hy : y < h)
    (hx : x < 8 * bytesPerRow w) :
    (s.packImage src w h).outBit w x y = (decide (x < w) && s.darkAt src w x y) := by
  have key := forRange_counts
    (fun n t => OnlyBuf .output (bytesPerRow w * h) s t ∧
      ∀ y, y < n → t.outBit w x y = (decide (x < w) && s.darkAt src w x y))
    h (packRow src w) s ⟨OnlyBuf.refl _ _ _, fun y hy => absurd hy (Nat.not_lt_zero y)⟩
    fun n hn t ⟨honly, hrows⟩ => ⟨honly.trans (packRow_onlyOut src w h n hn t), fun y hy => by
      rcases Nat.lt_succ_iff_lt_or_eq.mp hy with hbefore | rfl
      · have hrow : (y + 1) * bytesPerRow w ≤ n * bytesPerRow w := Nat.mul_le_mul_right _ hbefore
        rw [Nat.succ_mul] at hrow
        rw [State.outBit, packRow_readByte_before src w n t (by omega)]
        exact hrows y hbefore
      · rw [packRow_outBit hsrc hn t hx, honly.darkAt hsrc]⟩
  exact key.2 y hy

/-- A procedure on `OUT` and the new `OUT_LEN`: these two apart, nothing changes (R222). -/
theorem OnlyBuf.setOutLen_frame {n : Nat} {s t : State} (h : OnlyBuf .output n s t) (v : Word) :
    t.setOutLen v = { s with outBuf := (t.setOutLen v).outBuf, outLen := (t.setOutLen v).outLen } ∧
      SameBytes .input s (t.setOutLen v) ∧ SameBytes .work s (t.setOutLen v) := by
  refine ⟨?_, fun i => ?_, fun i => ?_⟩
  · obtain ⟨m, rfl⟩ := h.exists_setBuf
    rfl
  · rw [State.setOutLen_readByte, h.readByte i (.inl (by decide))]
  · rw [State.setOutLen_readByte, h.readByte i (.inl (by decide))]

/-- The packed length fits its register when the image's length fits its own (R9, R303). -/
theorem State.packedBytes_lt {s : State} {len : Word} (h : s.imageReady len) : s.packedBytes < 2 ^ 32 := by
  obtain ⟨⟨hw, -⟩, hlen⟩ := h
  calc s.packedBytes ≤ 4 * s.imageW * s.imageH := Nat.mul_le_mul_right _ (by rw [bytesPerRow]; omega)
    _ = len.toNat := hlen.symm
    _ < 2 ^ 32 := len.isLt

/-- Settles O47: the bits of the packed image, for the buffer and the length register the select names. -/
theorem packSetsOneBitPerPixel : Obligations.PackSetsOneBitPerPixel := by
  intro s src hsel ready
  have hsrc : packSource src ≠ .output := by rw [packSource]; split <;> decide
  have honly := s.packImage_onlyOut (packSource src) s.imageW s.imageH
  have hbit : ∀ x y, x < 8 * bytesPerRow s.imageW → y < s.imageH →
      ((s.packImage (packSource src) s.imageW s.imageH).setOutLen (BitVec.ofNat 32 s.packedBytes)).outBit s.imageW x y =
        (decide (x < s.imageW) && s.darkAt (packSource src) s.imageW x y) := fun x y hx hy => by
    rw [State.outBit, State.setOutLen_readByte]
    exact s.packImage_outBit hsrc hy hx
  refine ⟨_, exec_pack_ready hsel ready, ?_, fun x y hx hy => ?_, fun x y hx hpad hy => ?_, fun j hj => ?_,
    honly.setOutLen_frame _⟩
  · exact Nat.mod_eq_of_lt (State.packedBytes_lt ready)
  · rw [hbit x y (by rw [bytesPerRow]; omega) hy, decide_eq_true hx]
    rfl
  · rw [hbit x y hpad hy, decide_eq_false (not_lt.mpr hx), Bool.false_and]
  · rw [State.setOutLen_readByte, honly.readByte j (.inr hj)]

end Sys2Proof.Machine
end

section
/-! SUPPORT. The decoder and the encoder agree in both directions (R306 to R311, O1, O2, O4), and the words the decoder
refuses (O3). -/
namespace Sys2Proof

/-! ## The round trip -/

/-- A command's own opcode and operand name it (R307, R308). -/
theorem instrOfOpcode_opcodeOf (i : Instr) : instrOfOpcode (opcodeOf i).toNat (argOf i) = some i := by
  cases i <;> rfl

/-- A command whose opcode takes no `ARG` carries none (R308). -/
theorem argOf_of_not_takesArg {i : Instr} (h : takesArg (opcodeOf i).toNat = false) : argOf i = 0 := by
  obtain ⟨-, harg⟩ := instrOfOpcode_eq_some (instrOfOpcode_opcodeOf i)
  rw [harg, h, if_neg Bool.false_ne_true]

/-- A command is well formed when its operand is a byte's value (R308, R314). -/
theorem wellFormed_of_argOf_lt {i : Instr} (h : argOf i < 256) : i.wellFormed = true := by
  cases i
  case loadpreset p => exact decide_eq_true h
  case pack src => exact decide_eq_true h
  all_goals rfl

/-- The three fields of a well-formed command's word (R306 to R309). -/
theorem fields_encode (i : Instr) : Laws.Encoding.Statement i := by
  cases i with
  | nop => exact Laws.Encoding.nop
  | configure => exact Laws.Encoding.configure
  | loadpreset p => exact Laws.Encoding.loadpreset p
  | clamp => exact Laws.Encoding.clamp
  | thresh => exact Laws.Encoding.thresh
  | loadwork => exact Laws.Encoding.loadwork
  | diffuse => exact Laws.Encoding.diffuse
  | dither => exact Laws.Encoding.dither
  | pack src => exact Laws.Encoding.pack src
  | raster => exact Laws.Encoding.raster

/-- The converse of `decode_eq_ok`: a word that passes the three checks of R311 decodes. -/
theorem decode_of_checks {w : Word} {i : Instr} (hi : instrOfOpcode (opcField w).toNat (argField w).toNat = some i)
    (hr : rsvdField w = 0) (ha : takesArg (opcField w).toNat = false → argField w = 0) : decode w = .ok i := by
  simp only [decode, hi]
  rw [if_neg (not_not.mpr hr), if_neg fun ⟨hk, hne⟩ => hne (ha hk)]

/-- Settles O1: the fields of the word are the command's opcode, zeros and its operand, which pass the checks. -/
theorem decodeEncodeRoundTrip : Obligations.DecodeEncodeRoundTrip := by
  intro i hwf
  obtain ⟨hopc, hrsvd, harg⟩ := fields_encode i hwf
  refine decode_of_checks ?_ hrsvd fun hk => BitVec.eq_of_toNat_eq ?_
  · rw [hopc, harg, instrOfOpcode_opcodeOf]
  · rw [hopc] at hk
    rw [harg, argOf_of_not_takesArg hk]
    rfl

/-- Settles O2: a decoded command's operand is the word's `ARG` byte or 0. -/
theorem legalWordReencodes : Obligations.LegalWordReencodes := by
  intro w i h
  obtain ⟨hi, -, -⟩ := decode_eq_ok h
  obtain ⟨-, harg⟩ := instrOfOpcode_eq_some hi
  refine ⟨wellFormed_of_argOf_lt ?_, encode_of_decode h⟩
  rw [harg]
  split
  · exact (argField w).isLt
  · decide

/-- Settles O4: each word of the table is its command's encoding. -/
theorem tableWordsDecode : Obligations.TableWordsDecode := by
  have h := decodeEncodeRoundTrip
  exact ⟨h .nop rfl, h .configure rfl, h (.loadpreset 0) rfl, h (.loadpreset 1) rfl, h (.loadpreset 255) rfl,
    h .clamp rfl, h .thresh rfl, h .loadwork rfl, h .diffuse rfl, h .dither rfl, h (.pack 0) rfl, h (.pack 1) rfl,
    h .raster rfl⟩

/-! ## The refused words -/

/-- Every command's opcode is one of the ten of R307. -/
theorem opcodeOf_le (i : Instr) : (opcodeOf i).toNat ≤ 0x09 := by
  cases i <;> simp [opcodeOf]

/-- The unassigned opcodes are 0x0A and above (R310). -/
theorem instrOfOpcode_eq_none_iff (opc arg : Nat) : instrOfOpcode opc arg = none ↔ 0x09 < opc := by
  constructor
  · intro h
    by_contra hle
    have : opc < 10 := by omega
    interval_cases opc <;> cases h
  · intro h
    cases hi : instrOfOpcode opc arg with
    | none => rfl
    | some i =>
      obtain ⟨hopc, -⟩ := instrOfOpcode_eq_some hi
      exact absurd (hopc ▸ h) (not_lt.mpr (opcodeOf_le i))

/-- The opcodes without an `ARG` are all but `LOADPRESET`'s and `PACK`'s (R308). -/
theorem takesArg_eq_false_iff (opc : Nat) : takesArg opc = false ↔ opc ≠ 0x02 ∧ opc ≠ 0x08 := by
  simp [takesArg]

/-- The decoder refuses a word exactly when one of the three checks of R311 fails. -/
theorem decode_eq_error_iff (w : Word) :
    (∃ e, decode w = .error e) ↔
      instrOfOpcode (opcField w).toNat (argField w).toNat = none ∨ rsvdField w ≠ 0 ∨
        (takesArg (opcField w).toNat = false ∧ argField w ≠ 0) := by
  constructor
  · rintro ⟨e, he⟩
    by_contra hpass
    push Not at hpass
    obtain ⟨hsome, hr, ha⟩ := hpass
    obtain ⟨i, hi⟩ := Option.ne_none_iff_exists'.mp hsome
    cases (decode_of_checks hi hr ha).symm.trans he
  · intro hbad
    cases hw : decode w with
    | error e => exact ⟨e, rfl⟩
    | ok i =>
      obtain ⟨hi, hr, ha⟩ := decode_eq_ok hw
      rcases hbad with hnone | hrsvd | ⟨hk, harg⟩
      · cases hnone.symm.trans hi
      · exact absurd hr hrsvd
      · exact absurd (ha hk) harg

/-- Settles O3: the three failing checks of the decoder, on the bits of the word. -/
theorem decodeRefusesExactlyTheIllegalWords : Obligations.DecodeRefusesExactlyTheIllegalWords := by
  intro w
  rw [decode_eq_error_iff, instrOfOpcode_eq_none_iff, takesArg_eq_false_iff, and_assoc]
  rfl

end Sys2Proof
end

section
/-! SUPPORT. `THRESH` (R504, O33), and `LOADPRESET` of a preset that does not exist (R458, O30). -/
namespace Sys2Proof.Machine

/-- Settles O30: the one check of `LOADPRESET` fails. -/
theorem loadpresetOfNoPresetRaisesBadOperand : Obligations.LoadpresetOfNoPresetRaisesBadOperand := by
  intro s p hp
  rw [exec_loadpreset_eq]
  exact s.runCommand_fail _ _ _ .badOperand (by rw [decide_eq_true hp]; rfl)

/-- The alpha of a pixel's register word is its top byte (R305). -/
theorem wordOfPixel_alpha (p : Pixel) : (wordOfPixel p).extractLsb' 24 8 = p.A := joinBytes_byte3 ..

/-- The colour bytes of a pixel's register word are its channels, red the lowest (R305). -/
theorem wordOfPixel_channel (p : Pixel) {k : Nat} (hk : k < 3) :
    (wordOfPixel p).extractLsb' (8 * k) 8 = channelOf p k := by
  interval_cases k
  · exact joinBytes_byte0 ..
  · exact joinBytes_byte1 ..
  · exact joinBytes_byte2 ..

/-- A thresholded pixel's three colour channels are equal, 0 or 255 by its luminance (R501, R502). -/
theorem channelOf_thresholdPixel (thr : Nat) (p : Pixel) (k : Nat) :
    channelOf (thresholdPixel thr p) k = if lum1000 p < 1000 * thr then 0 else 255 := by
  rcases thresholdPixel_cases thr p with ⟨hdark, hq⟩ | ⟨hlight, hq⟩
  · rw [hq, if_pos ((isDark_iff thr p).mp hdark)]
    simp [channelOf]
  · rw [hq, if_neg fun h => Bool.false_ne_true (hlight.symm.trans ((isDark_iff thr p).mpr h))]
    simp [channelOf]

/-- Settles O33: `THRESH` has no check, and its effect is the one write of `PIX_QUANT`. -/
theorem threshWritesTheQuantizedPixel : Obligations.ThreshWritesTheQuantizedPixel := by
  intro s
  refine ⟨_, (exec_thresh_eq s).trans (s.runCommand_pass _ _ _ rfl), ?_, fun k hk => ?_, rfl,
    fun b i => s.setPixQuant_readByte _ b i⟩
  · rw [State.setPixQuant_pixQuant, wordOfPixel_alpha, thresholdPixel_alpha]
    rfl
  · rw [State.setPixQuant_pixQuant, wordOfPixel_channel _ hk, channelOf_thresholdPixel]
    rfl

end Sys2Proof.Machine
end

section
/-! SUPPORT. R401 and R402 from one fact: the clamp of `v` is `k` or above exactly when `v` lies above `k - 1/2`, or on
it where the tie rule rounds up (O21, O22, O23); and `CLAMP` by zero (R403, O25). -/
namespace Sys2Proof.Machine

/-- Settles O21: the three branches of the integer clamp are those of R400. -/
theorem clampIsTheRationalClamp : Obligations.ClampIsTheRationalClamp := clampRatio_eq_clampQ

/-- Settles O25: the one check of `CLAMP` fails. -/
theorem clampByZeroRaisesBadOperand : Obligations.ClampByZeroRaisesBadOperand := by
  intro s hden
  rw [exec_clamp_eq]
  exact s.runCommand_fail _ _ _ .badOperand (by rw [hden]; rfl)

/-! ## What rounds to `k` or above -/

/-- The value rounds to `k` or above, the clamp's bounds apart: it lies above the tie `k - 1/2`, or on it where the tie
rule rounds up, as `HALF_EVEN` does from an odd `k - 1` (R400). -/
def Reaches (t : RoundTie) (k : ℤ) (v : ℚ) : Prop :=
  (k : ℚ) - 1 / 2 < v ∨ (v = (k : ℚ) - 1 / 2 ∧ (t = .halfAway ∨ (k - 1) % 2 = 1))

theorem Reaches.mono {t : RoundTie} {k : ℤ} {v v' : ℚ} (h : Reaches t k v) (hv : v ≤ v') : Reaches t k v' := by
  rcases h with hlt | ⟨rfl, hup⟩
  · exact .inl (hlt.trans_le hv)
  · exact hv.lt_or_eq.imp id fun heq => ⟨heq.symm, hup⟩

theorem not_reaches_of_lt {t : RoundTie} {k : ℤ} {v : ℚ} (h : v < (k : ℚ) - 1 / 2) : ¬ Reaches t k v := by
  rintro (hlt | ⟨heq, -⟩)
  · exact lt_asymm h hlt
  · exact h.ne heq

/-- On the tie itself the tie rule decides. -/
theorem reaches_iff_of_tie {t : RoundTie} {k : ℤ} {v : ℚ} (h : v = (k : ℚ) - 1 / 2) :
    Reaches t k v ↔ t = .halfAway ∨ (k - 1) % 2 = 1 := by
  simp [Reaches, h]

/-! ## The clamp as the largest value reached -/

/-- A value the clamp does not cut off goes to the integer above its floor when it reaches it, and to its floor
otherwise (R400). -/
theorem clampQ_of_mem (t : RoundTie) {v : ℚ} (h0 : 0 ≤ v) (h255 : v ≤ 255) :
    (Reaches t (⌊v⌋ + 1) v ∧ clampQ t v = ⌊v⌋ + 1) ∨ (¬ Reaches t (⌊v⌋ + 1) v ∧ clampQ t v = ⌊v⌋) := by
  unfold clampQ
  rw [if_neg (not_lt.mpr h255), if_neg (not_lt.mpr h0)]
  by_cases hlow : v - ⌊v⌋ < 1 / 2
  · exact .inr ⟨not_reaches_of_lt (by push_cast; linarith), if_pos hlow⟩
  by_cases hup : 1 / 2 < v - ⌊v⌋
  · exact .inl ⟨.inl (by push_cast; linarith), by rw [if_neg hlow, if_pos hup]⟩
  have htie : v = ((⌊v⌋ + 1 : ℤ) : ℚ) - 1 / 2 := by push_cast; linarith
  rw [reaches_iff_of_tie htie, add_sub_cancel_right, if_neg hlow, if_neg hup]
  cases t with
  | halfAway => simp
  | halfEven =>
    rcases Int.emod_two_eq_zero_or_one ⌊v⌋ with he | ho
    · simp [he]
    · simp [ho]

/-- For a value it does not cut off, the clamp is the largest integer the value reaches. -/
theorem le_clampQ_iff_of_mem (t : RoundTie) {v : ℚ} (h0 : 0 ≤ v) (h255 : v ≤ 255) (k : ℤ) :
    k ≤ clampQ t v ↔ Reaches t k v := by
  have hfloor : (⌊v⌋ : ℚ) ≤ v := Int.floor_le v
  have hceil : v < ⌊v⌋ + 1 := Int.lt_floor_add_one v
  have hcases := clampQ_of_mem t h0 h255
  obtain hk | rfl | hk : k ≤ ⌊v⌋ ∨ k = ⌊v⌋ + 1 ∨ ⌊v⌋ + 2 ≤ k := by omega
  · have : (k : ℚ) ≤ ⌊v⌋ := Int.cast_le.mpr hk
    exact iff_of_true (by omega) (.inl (by linarith))
  · rcases hcases with ⟨hr, h⟩ | ⟨hr, h⟩
    · exact iff_of_true h.ge hr
    · exact iff_of_false (by omega) hr
  · have : (⌊v⌋ : ℚ) + 2 ≤ k := by exact_mod_cast hk
    exact iff_of_false (by omega) (not_reaches_of_lt (by linarith))

/-- The clamp's result is in [0, 255] (R401). -/
theorem clampQ_bounds (t : RoundTie) (v : ℚ) : 0 ≤ clampQ t v ∧ clampQ t v ≤ 255 := by
  by_cases hhigh : 255 < v
  · rw [clampQ_of_gt t hhigh]; decide
  by_cases hneg : v < 0
  · rw [clampQ_of_neg t hneg]; decide
  have hiff := le_clampQ_iff_of_mem t (not_lt.mp hneg) (not_lt.mp hhigh)
  have htop : ¬ 256 ≤ clampQ t v := fun h => not_reaches_of_lt (by push_cast; linarith) ((hiff 256).mp h)
  exact ⟨(hiff 0).mpr (.inl (by push_cast; linarith)), by omega⟩

/-- Among the bytes above 0 the clamp is the largest the value reaches, cut off or not. -/
theorem le_clampQ_iff (t : RoundTie) (v : ℚ) {k : ℤ} (h1 : 1 ≤ k) (h255 : k ≤ 255) : k ≤ clampQ t v ↔ Reaches t k v := by
  have hlo : (1 : ℚ) ≤ k := by exact_mod_cast h1
  have hhi : (k : ℚ) ≤ 255 := by exact_mod_cast h255
  by_cases hhigh : 255 < v
  · rw [clampQ_of_gt t hhigh]
    exact iff_of_true h255 (.inl (by linarith))
  by_cases hneg : v < 0
  · rw [clampQ_of_neg t hneg]
    exact iff_of_false (by omega) (not_reaches_of_lt (by linarith))
  exact le_clampQ_iff_of_mem t (not_lt.mp hneg) (not_lt.mp hhigh) k

/-- The clamp is the byte that the value reaches while it does not reach the next; 0 needs no reaching, and 255 has no
next. -/
theorem clampQ_eq_of_reaches {t : RoundTie} {v : ℚ} {k : ℤ} (h0 : 0 ≤ k) (h255 : k ≤ 255)
    (reached : k ≠ 0 → Reaches t k v) (last : k ≠ 255 → ¬ Reaches t (k + 1) v) : clampQ t v = k := by
  obtain ⟨hlo, hhi⟩ := clampQ_bounds t v
  apply le_antisymm
  · obtain rfl | hne := eq_or_ne k 255
    · exact hhi
    · have := mt (le_clampQ_iff t v (k := k + 1) (by omega) (by omega)).mp (last hne)
      omega
  · obtain rfl | hne := eq_or_ne k 0
    · exact hlo
    · exact (le_clampQ_iff t v (by omega) h255).mpr (reached hne)

/-! ## The consequences of R401 -/

/-- The clamp fixes the integers of [0, 255] (R401). -/
theorem clampQ_natCast (t : RoundTie) {n : ℕ} (hn : n ≤ 255) : clampQ t (n : ℚ) = n :=
  clampQ_eq_of_reaches (by omega) (by omega) (fun _ => .inl (by push_cast; linarith))
    fun _ => not_reaches_of_lt (by push_cast; linarith)

/-- The clamp is monotone: what a value reaches a larger one reaches (R401). -/
theorem clampQ_mono (t : RoundTie) {v v' : ℚ} (h : v ≤ v') : clampQ t v ≤ clampQ t v' := by
  obtain ⟨hlo, hhi⟩ := clampQ_bounds t v
  obtain hzero | hpos := hlo.eq_or_lt
  · rw [← hzero]
    exact (clampQ_bounds t v').1
  · have hk := fun u => le_clampQ_iff t u hpos hhi
    exact (hk v').mpr (((hk v).mp le_rfl).mono h)

/-- The integer clamp is monotone in its numerator (R401). -/
theorem clampRatio_mono (t : RoundTie) {num num' : ℤ} {den : ℕ} (hd : 0 < den) (h : num ≤ num') :
    clampRatio t num den ≤ clampRatio t num' den := by
  have hq : (num : ℚ) / (den : ℚ) ≤ (num' : ℚ) / (den : ℚ) :=
    div_le_div_of_nonneg_right (by exact_mod_cast h) (Nat.cast_nonneg den)
  have := clampQ_mono t hq
  rw [← clampRatio_eq_clampQ t num den hd, ← clampRatio_eq_clampQ t num' den hd] at this
  exact_mod_cast this

theorem clampQ_of_lt_half (t : RoundTie) {v : ℚ} (h : v < 1 / 2) : clampQ t v = 0 :=
  clampQ_eq_of_reaches le_rfl (by decide) (fun hne => absurd rfl hne)
    fun _ => not_reaches_of_lt (by push_cast; linarith)

/-- A value that reaches 255 saturates (R401). -/
theorem clampQ_of_reaches_top {t : RoundTie} {v : ℚ} (h : Reaches t 255 v) : clampQ t v = 255 :=
  clampQ_eq_of_reaches (by decide) le_rfl (fun _ => h) fun hne => absurd rfl hne

/-- The clamp of a tie in [0, 255]: one more than its floor, but for `HALF_EVEN` and an even floor (R402). -/
theorem clampQ_add_half (t : RoundTie) {n : ℕ} (hn : n ≤ 254) :
    clampQ t ((n : ℚ) + 1 / 2) = if t = .halfAway ∨ n % 2 = 1 then (n : ℤ) + 1 else n := by
  have htie : (n : ℚ) + 1 / 2 = (((n : ℤ) + 1 : ℤ) : ℚ) - 1 / 2 := by push_cast; ring
  have hup : Reaches t ((n : ℤ) + 1) ((n : ℚ) + 1 / 2) ↔ t = .halfAway ∨ n % 2 = 1 := by
    rw [reaches_iff_of_tie htie, add_sub_cancel_right]
    norm_cast
  split_ifs with h
  · exact clampQ_eq_of_reaches (by omega) (by omega) (fun _ => hup.mpr h)
      fun _ => not_reaches_of_lt (by push_cast; linarith)
  · exact clampQ_eq_of_reaches (by omega) (by omega) (fun _ => .inl (by push_cast; linarith)) fun _ => mt hup.mp h

/-- Settles O22: each clause by what its value reaches. -/
theorem clampIsMonotoneOntoBytes : Obligations.ClampIsMonotoneOntoBytes := by
  refine ⟨fun t => ⟨fun n hn => clampQ_natCast t hn, clampQ_bounds t, fun v v' h => clampQ_mono t h,
    fun v h => clampQ_of_lt_half t h, fun num num' den hd h => clampRatio_mono t hd h⟩, fun v h => ?_, fun v h => ?_, ?_,
    ?_, ?_⟩
  · have hreach : Reaches .halfAway 255 (509 / 2) := (reaches_iff_of_tie (by norm_num)).mpr (.inl rfl)
    exact clampQ_of_reaches_top (hreach.mono h)
  · exact clampQ_of_reaches_top (.inl (by push_cast; linarith))
  · rw [show (509 / 2 : ℚ) = (254 : ℕ) + 1 / 2 by norm_num, clampQ_add_half _ le_rfl]
    decide
  · rw [show (1 / 2 : ℚ) = (0 : ℕ) + 1 / 2 by norm_num, clampQ_add_half _ (by decide)]
    decide
  · rw [show (1 / 2 : ℚ) = (0 : ℕ) + 1 / 2 by norm_num, clampQ_add_half _ (by decide)]
    decide

/-! ## Where the tie rules differ (R402) -/

/-- A quotient is the tie `n + 1/2` when twice the numerator is `2 n + 1` denominators. -/
theorem div_eq_add_half_iff {num : ℤ} {den : ℕ} (hd : 0 < den) (n : ℕ) :
    (num : ℚ) / (den : ℚ) = (n : ℚ) + 1 / 2 ↔ 2 * num = (2 * n + 1) * (den : ℤ) := by
  have hd' : (den : ℚ) ≠ 0 := Nat.cast_ne_zero.mpr hd.ne'
  rw [div_eq_iff hd', ← Int.cast_inj (α := ℚ)]
  push_cast
  exact ⟨fun h => by linarith, fun h => by linarith⟩

/-- Where the tie rules differ the value is a tie above an even integer: only there does it reach a byte under one rule
and not under the other. -/
theorem exists_even_tie_of_clampQ_ne {v : ℚ} (h : clampQ .halfAway v ≠ clampQ .halfEven v) :
    ∃ n : ℕ, n ≤ 254 ∧ n % 2 = 0 ∧ v = (n : ℚ) + 1 / 2 := by
  have haway := clampQ_bounds .halfAway v
  have heven := clampQ_bounds .halfEven v
  rcases h.lt_or_gt with hlt | hlt
  · have hreach := (le_clampQ_iff .halfEven v (by omega) heven.2).mp le_rfl
    refine absurd ((le_clampQ_iff .halfAway v (by omega) heven.2).mpr ?_) (not_le.mpr hlt)
    exact hreach.imp id fun ⟨htie, _⟩ => ⟨htie, .inl rfl⟩
  · have hreach := (le_clampQ_iff .halfAway v (by omega) haway.2).mp le_rfl
    have hnot := mt (le_clampQ_iff .halfEven v (by omega) haway.2).mpr (not_le.mpr hlt)
    generalize clampQ .halfAway v = k at *
    rcases hreach with habove | ⟨htie, -⟩
    · exact absurd (.inl habove) hnot
    · have hodd : ¬ (k - 1) % 2 = 1 := fun hodd => hnot (.inr ⟨htie, .inr hodd⟩)
      obtain ⟨n, hn⟩ := Int.eq_ofNat_of_zero_le (show 0 ≤ k - 1 by omega)
      obtain rfl : k = n + 1 := by omega
      refine ⟨n, by omega, by omega, ?_⟩
      rw [htie]
      push_cast
      ring

/-- Settles O23: the clamp of a tie is known, and the rules differ on ties only. -/
theorem tieRulesDifferOnlyOnEvenHalves : Obligations.TieRulesDifferOnlyOnEvenHalves := by
  intro num den hd
  have hclamp := fun t => clampRatio_eq_clampQ t num den hd
  have hties : ∀ n : ℕ, n ≤ 254 → 2 * num = (2 * n + 1) * (den : ℤ) →
      clampRatio .halfAway num den = n + 1 ∧ clampRatio .halfEven num den = if n % 2 = 0 then n else n + 1 := by
    intro n hn htie
    simp only [(div_eq_add_half_iff hd n).mpr htie, clampQ_add_half _ hn] at hclamp
    have haway := hclamp .halfAway
    have heven := hclamp .halfEven
    simp only [true_or, reduceCtorEq, false_or, if_true] at haway heven
    refine ⟨by omega, ?_⟩
    split_ifs at heven ⊢ <;> omega
  refine ⟨⟨fun hne => ?_, fun ⟨n, hn, heven, htie⟩ => ?_⟩, hties⟩
  · have hneQ : clampQ .halfAway ((num : ℚ) / (den : ℚ)) ≠ clampQ .halfEven ((num : ℚ) / (den : ℚ)) := by
      rw [← hclamp, ← hclamp]
      exact_mod_cast hne
    obtain ⟨n, hn, heven, htie⟩ := exists_even_tie_of_clampQ_ne hneQ
    exact ⟨n, hn, heven, (div_eq_add_half_iff hd n).mp htie⟩
  · obtain ⟨haway, hhalf⟩ := hties n hn htie
    rw [haway, hhalf, if_pos heven]
    omega

end Sys2Proof.Machine
end

section
/-! SUPPORT. An image of thresholded pixels passes `DITHER` unchanged: with error 0 the diffuser writes every byte back as
it was (R550, R553, O46). -/
namespace Sys2Proof.Machine

/-- A byte over the common denominator clamps to itself: the update of a channel with error 0 (R401, R553). -/
theorem diffusedByte_error_zero (t : RoundTie) {div : Nat} (hd : 0 < div) (old : Byte) (wt : Int) :
    diffusedByte t div old 0 wt = old := by
  have hold : clampRatio t ((old.toNat : Int) * div) div = old.toNat := by
    have hq : (((old.toNat : Int) * div : Int) : ℚ) / (div : ℚ) = (old.toNat : ℚ) := by
      push_cast
      exact mul_div_cancel_right₀ _ (Nat.cast_ne_zero.mpr hd.ne')
    have := clampRatio_eq_clampQ t ((old.toNat : Int) * div) div hd
    rw [hq, clampQ_natCast t (by omega)] at this
    exact_mod_cast this
  rw [diffusedByte, zero_mul, add_zero, hold, BitVec.ofNat_toNat, BitVec.setWidth_eq]

theorem channelError_self (o : Byte) : channelError o o = 0 := sub_self _

theorem OnlyBuf.divisor {b : Buf} {n : Nat} {s t : State} (h : OnlyBuf b n s t) : t.divisor = s.divisor := by
  rw [State.divisor, h.cfg, State.divisor]

theorem State.diffuseCell_self (s : State) (hd : 0 < s.divisor) (p : Pixel) (x y w h r c : Nat) (j : Nat) :
    (s.diffuseCell p p x y w h r c).readByte .work j = s.readByte .work j := by
  rw [State.diffuseCell_readByte]
  simp only [channelError_self, ite_self, diffusedByte_error_zero _ hd]

/-- A pixel that is its own quantized pixel diffuses nothing (R550, R553). -/
theorem State.diffuse_self (s : State) (hd : 0 < s.divisor) (p : Pixel) (x y w h : Nat) (j : Nat) :
    (s.diffuse p p x y w h).readByte .work j = s.readByte .work j :=
  s.diffuse_induct (fun t => t.readByte .work j = s.readByte .work j) p p x y w h rfl fun r c t hst ht =>
    (t.diffuseCell_self (hst.divisor ▸ hd) p x y w h r c j).trans ht

/-- Storing the pixel a buffer holds changes none of its bytes (R204). -/
theorem State.readByte_writeBytes_pixelBytes {s : State} {b : Buf} {w x y : Nat} {p : Pixel}
    (h : s.readPixel b w x y = p) (j : Nat) :
    (s.writeBytes b (pixelIndex w x y) (pixelBytes p)).readByte b j = s.readByte b j := by
  subst h
  rw [State.readByte_writeBytes]
  split_ifs with hj
  · obtain ⟨-, hlo, hhi⟩ := hj
    obtain ⟨k, rfl⟩ := Nat.exists_eq_add_of_le hlo
    have hk : k < 4 := Nat.lt_of_add_lt_add_left hhi
    rw [Nat.add_sub_cancel_left]
    interval_cases k <;> rfl
  · rfl

/-- The step at a pixel that is its own thresholded pixel changes no byte (R602). -/
theorem State.ditherStep_fixed {s : State} (hd : 0 < s.divisor) {w x y : Nat} (h : Nat)
    (hfix : thresholdPixel s.threshold (s.readPixel .work w x y) = s.readPixel .work w x y) (j : Nat) :
    (s.ditherStep w h x y).readByte .work j = s.readByte .work j := by
  have hsame := s.diffuse_self hd (s.readPixel .work w x y) x y w h
  simp only [State.ditherStep, hfix]
  rw [State.readByte_writeBytes_pixelBytes (State.readPixel_congr fun k _ => hsame _), hsame]

/-- The pass over an image of such pixels changes no byte (R601, R602). -/
theorem State.ditherPass_fixed {s : State} (hd : 0 < s.divisor) {w h : Nat}
    (hfix : ∀ x y, x < w → y < h → thresholdPixel s.threshold (s.readPixel .work w x y) = s.readPixel .work w x y)
    (j : Nat) : (s.ditherPass w h).readByte .work j = s.readByte .work j := by
  refine s.ditherPass_induct (fun _ t => ∀ j, t.readByte .work j = s.readByte .work j) w h (fun _ => rfl)
    (fun x y t hx hy hst ht j => ?_) j
  have hpix : t.readPixel .work w x y = s.readPixel .work w x y := State.readPixel_congr fun k _ => ht _
  rw [State.ditherStep_fixed (hst.divisor ▸ hd) h (by rw [hpix, hst.threshold]; exact hfix x y hx hy), ht]

/-- The copy's pixels are those of `IN` (R557, R600). -/
theorem State.copyImage_readPixel (s : State) {w h x y : Nat} (hx : x < w) (hy : y < h) :
    (s.copyImage (4 * w * h)).readPixel .work w x y = s.readPixel .input w x y := by
  have := pixelIndex_bound w h x y hx hy
  have hbyte : ∀ k, k < 4 → (s.copyImage (4 * w * h)).readByte .work (pixelIndex w x y + k) =
      s.readByte .input (pixelIndex w x y + k) := fun k hk => by rw [State.copyImage_readByte, if_pos (by omega)]
  have hR := hbyte 0 (by decide)
  rw [Nat.add_zero] at hR
  simp only [State.readPixel, hR, hbyte 1 (by decide), hbyte 2 (by decide), hbyte 3 (by decide)]

/-- Settles O46: the copy brings the image to `WORK`, and no step of the pass changes a byte of it. -/
theorem thresholdedImagePassesUnchanged : Obligations.ThresholdedImagePassesUnchanged := by
  intro s hc ready hfix
  have hcopy := s.copyImage_onlyWork (4 * s.imageW * s.imageH)
  have hd : 0 < (s.copyImage (4 * s.imageW * s.imageH)).divisor := hcopy.divisor ▸ hc.div.1
  refine ⟨_, exec_dither_ready ready, fun j hj => ?_⟩
  rw [State.setWorkLen_readByte, State.dither, State.ditherPass_fixed hd, State.copyImage_readByte, if_pos hj]
  intro x y hx hy
  rw [s.copyImage_readPixel hx hy, hcopy.threshold]
  exact hfix x y hx hy

end Sys2Proof.Machine
end

section
/-! SUPPORT. `CONFIGURE` and `LOADPRESET` with their checks passed (R456, O26, R458, O29). -/
namespace Sys2Proof.Machine

/-! ## `CONFIGURE` -/

theorem exec_configure_ready {s : State} {c0 : Nat} (shape : badKernelShape s.params s.staged = false)
    (first : firstNonzeroCol s.params s.staged = some c0) (den : s.staged.thrDen ≠ 0) :
    exec .configure s = .next (s.setCfg (newConfiguration s.params s.staged c0)) := by
  rw [exec_configure_eq, State.runCommand_pass _ _ _ _ (by simpa [firstCause, shape, first] using den), first,
    Option.getD_some]

/-- `CFG_DIV` read as a number is the staged divisor coerced to at least 1 (R125, R452). -/
theorem coerceDivisor_toNat (d : Word) : ((coerceDivisor d).toNat : ℤ) = if 1 ≤ d.toInt then d.toInt else 1 := by
  unfold coerceDivisor
  split
  next h => exact (BitVec.toInt_eq_toNat_of_msb (by rw [BitVec.msb_eq_toInt]; exact decide_eq_false (by omega))).symm
  next => rfl

/-- A clamp's result fits its register: read back, it is the clamp over the rationals (R400, R453). -/
theorem clampRatio_word_toNat (t : RoundTie) (num : Int) {den : Nat} (hd : 0 < den) :
    ((BitVec.ofNat 32 (clampRatio t num den)).toNat : ℤ) = clampQ t ((num : ℚ) / (den : ℚ)) := by
  have hword : clampRatio t num den < 2 ^ 32 := (clampRatio_le t num den hd).trans_lt (by decide)
  rw [BitVec.toNat_ofNat, Nat.mod_eq_of_lt hword, clampRatio_eq_clampQ t num den hd]

/-- Settles O26: the three checks pass, the first nonzero column is the one the search finds, and the effect is the one
write of the configuration. -/
theorem configureWritesTheDerivedConfiguration : Obligations.ConfigureWritesTheDerivedConfiguration := by
  intro s legal hrow1 hrow2 hcol1 hcol2 ⟨c, hc, hne⟩ hden
  have shape := (badKernelShape_eq_false s.params s.staged).mpr ⟨hrow1, hrow2, hcol1, hcol2⟩
  obtain ⟨c0, first, hlt, hne0, hbefore⟩ :=
    (firstNonzeroCol_cases s.params s.staged).resolve_right fun ⟨_, hzero⟩ => hne (hzero c hc)
  have hden0 : s.staged.thrDen ≠ 0 := fun h => hden (by rw [h]; rfl)
  have hsmall : c0 < 2 ^ 31 := by
    obtain ⟨-, -, hcols⟩ := kernelShape_of_legal legal
    have : s.staged.cols ≤ s.params.kmaxCols := hcol2
    omega
  exact ⟨_, exec_configure_ready shape first hden0, rfl, rfl, fun r c hr hc => newConfiguration_cellAt _ _ _ hr hc,
    coerceDivisor_toNat _, clampRatio_word_toNat _ _ (Nat.pos_of_ne_zero hden),
    ⟨c0, hlt, hne0, hbefore, toInt_anchorWord hsmall⟩, rfl, fun b i => s.setCfg_readByte _ b i⟩

/-! ## `LOADPRESET` -/

theorem exec_loadpreset_ready (s : State) {n : Nat} (h : n < 2) :
    exec (.loadpreset n) s = .next (s.setStaged (stagePreset s.params n s.staged)) := by
  have hpass : decide (2 ≤ n) = false := decide_eq_false (by omega)
  rw [exec_loadpreset_eq, State.runCommand_pass _ _ _ _ (by rw [hpass]; rfl)]

/-- The weights `LOADPRESET` stages: the preset's inside its shape, the staged ones as they were outside it (R458). -/
theorem stagePreset_cellAt (p : Params) (n : Nat) (g : Staged) {r c : Nat} (hr : r < p.kmaxRows) (hc : c < p.kmaxCols) :
    cellAt p (stagePreset p n g).kw r c =
      if r < 3 ∧ c < presetCols n then weightAt (presetWeights n) r c else cellAt p g.kw r c := by
  simp only [stagePreset, cellAt_tabulateCells p _ r c hr hc]

theorem presetCols_le (n : Nat) : presetCols n ≤ 5 := by
  rw [presetCols]
  split <;> decide

/-- Settles O29: the one check passes, and the effect is the one write of the staging registers. -/
theorem loadpresetStagesTheKernel : Obligations.LoadpresetStagesTheKernel := by
  intro s p legal hp
  obtain ⟨hrows, hcols, -⟩ := kernelShape_of_legal legal
  refine ⟨_, exec_loadpreset_ready s hp, rfl, apply_ite (BitVec.ofNat 32) _ _ _, fun r c hr hc => ?_,
    fun r c hr hc hout => ?_, rfl, fun b i => s.setStaged_readByte _ b i⟩
  · have hc5 : c < 5 := lt_of_lt_of_le hc (presetCols_le p)
    exact (stagePreset_cellAt s.params p s.staged (by omega) (by omega)).trans (if_pos ⟨hr, hc⟩)
  · exact (stagePreset_cellAt s.params p s.staged hr hc).trans (if_neg hout)

end Sys2Proof.Machine
end

section
/-! SUPPORT. The forward aim of the kernel (R460, O31), and what it makes of the diffuser and of the dither step: no
visited pixel changes (O39), and the step may store its pixel before or after the diffusion (R602, O41). -/
namespace Sys2Proof.Machine

/-- Settles O31: in row 0 the weight stands at or right of the first nonzero column; any other row lies below. -/
theorem nonzeroCellsAimForward : Obligations.NonzeroCellsAimForward := by
  intro s hc x y r c _ _ hw
  rcases Nat.eq_zero_or_pos r with rfl | hr
  · have hright := hc.targetCol_row0 x hw
    refine ⟨.inr ⟨rfl, ?_⟩, .inr ⟨by simp [targetRow], hright⟩⟩
    rw [State.targetCol] at hright
    omega
  · exact ⟨.inl hr, .inl (by rw [targetRow]; omega)⟩

/-! ## Visited pixels -/

/-- A pixel at or before another in raster order stands at or before it in its buffer (R204). -/
theorem pixelIndex_le_of_visited {w x y tx ty : Nat} (htx : tx < w) (h : ty < y ∨ (ty = y ∧ tx ≤ x)) :
    pixelIndex w tx ty ≤ pixelIndex w x y := by
  rcases h with hrow | ⟨rfl, hcol⟩
  · have := pixelIndex_add_four_le (tx := x) htx (.inl hrow)
    omega
  · rw [pixelIndex, pixelIndex]
    omega

/-- Settles O39: a fault changes no byte, and the diffusion none up to the position's pixel. -/
theorem diffuseSparesVisitedPixels : Obligations.DiffuseSparesVisitedPixels := by
  intro s t hc hexec tx ty k htx _ hk hvisited
  rcases exec_cases hexec with ⟨cause, rfl⟩ | effect
  · exact s.raise_readByte cause _ _ _
  · cases effect with
    | diffuse ready pos =>
      have := pixelIndex_le_of_visited htx hvisited
      exact hc.diffuse_visited _ _ _ pos.1 (by omega)

/-! ## The order of the step's store and its diffusion -/

/-- What the diffuser reads for byte `j` of `WORK` is the same in the two states: nothing but these (R553). -/
structure SameDiffusionAt (j : Nat) (s t : State) : Prop where
  /-- The tie rule is the same (R11). -/
  params : t.params = s.params
  /-- The kernel, its anchor and its divisor are the same (R450). -/
  cfg : t.cfg = s.cfg
  /-- The byte itself is the same. -/
  byte : t.readByte .work j = s.readByte .work j

/-- One cell's update reads no other byte of `WORK` for the one it writes (R553). -/
theorem SameDiffusionAt.diffuseCell {j : Nat} {s t : State} (h : SameDiffusionAt j s t) (o q : Pixel)
    (x y w hgt r c : Nat) :
    SameDiffusionAt j (s.diffuseCell o q x y w hgt r c) (t.diffuseCell o q x y w hgt r c) := by
  obtain ⟨hp, hc, hj⟩ := h
  have hs := s.diffuseCell_onlyWork o q x y w hgt r c
  have ht := t.diffuseCell_onlyWork o q x y w hgt r c
  refine ⟨by rw [hs.params, ht.params, hp], by rw [hs.cfg, ht.cfg, hc], ?_⟩
  have hweight : t.weight r c = s.weight r c := by rw [State.weight, State.weight, hp, hc]
  have hcol : t.targetCol x c = s.targetCol x c := by simp only [State.targetCol, State.anchor, hc]
  have hdiv : t.divisor = s.divisor := by rw [State.divisor, State.divisor, hc]
  rw [t.diffuseCell_readByte, s.diffuseCell_readByte, hweight, hcol, hdiv, hp, hj]

/-- So the diffusion leaves a byte of `WORK` that depends on no other byte (R554). -/
theorem SameDiffusionAt.diffuse {j : Nat} {s t : State} (h : SameDiffusionAt j s t) (o q : Pixel) (x y w hgt : Nat) :
    SameDiffusionAt j (s.diffuse o q x y w hgt) (t.diffuse o q x y w hgt) := by
  rw [State.diffuse, State.diffuse, h.cfg]
  exact forRange_rel _ _ _ _ s t h fun r _ a b hab =>
    forRange_rel _ _ _ _ a b hab fun c _ a b hab => hab.diffuseCell o q x y w hgt r c

/-- Under a legal configuration a run of bytes written at or before the position's pixel may be written before the
diffusion or after it (R460, R602). -/
theorem State.ConfigInv.diffuse_writeBytes {s : State} (hc : s.ConfigInv) (o q : Pixel) {x y w i : Nat} (h : Nat)
    (hx : x < w) {vs : List Byte} (hi : i + vs.length ≤ pixelIndex w x y + 4) :
    SameBytes .work ((s.diffuse o q x y w h).writeBytes .work i vs) ((s.writeBytes .work i vs).diffuse o q x y w h) := by
  intro j
  have hstored : (s.writeBytes .work i vs).ConfigInv := hc.of_eq (s.writeBytes_params ..) (s.writeBytes_cfg ..)
  by_cases hj : j < pixelIndex w x y + 4
  · rw [hstored.diffuse_visited o q h hx hj, State.readByte_writeBytes, State.readByte_writeBytes,
      hc.diffuse_visited o q h hx hj]
  · have hout : ¬ (Buf.work = .work ∧ i ≤ j ∧ j < i + vs.length) := by omega
    have hsame : SameDiffusionAt j s (s.writeBytes .work i vs) :=
      ⟨s.writeBytes_params .., s.writeBytes_cfg .., by rw [State.readByte_writeBytes, if_neg hout]⟩
    rw [(hsame.diffuse o q x y w h).byte, State.readByte_writeBytes, if_neg hout]

/-- Settles O41: the step stores last; the diffusion neither reads nor writes the bytes of the stored pixel. -/
theorem ditherStepStoresAfterOrBefore : Obligations.DitherStepStoresAfterOrBefore := fun s w h x y hc hx _ =>
  ⟨s.ditherStep_readPixel w h x y, fun _ => s.ditherStep_readByte_other w h x y,
    hc.diffuse_writeBytes _ _ h hx (le_of_eq rfl)⟩

end Sys2Proof.Machine
end

section
/-! SUPPORT. Luminance over the integers and over the rationals (R500, R501, O32). -/
namespace Sys2Proof.Machine

/-- The weights sum to 1000, so white is the brightest (R500). -/
theorem lum1000_le (p : Pixel) : lum1000 p ≤ 255000 := by
  have hR := p.R.isLt
  have hG := p.G.isLt
  have hB := p.B.isLt
  rw [lum1000]
  omega

theorem lum1000_grey {p : Pixel} (hG : p.G = p.R) (hB : p.B = p.R) : lum1000 p = 1000 * p.R.toNat := by
  rw [lum1000, hG, hB]
  omega

/-- Luminance reads no alpha (R500). -/
@[simp] theorem lum1000_with_alpha (p : Pixel) (a : Byte) : lum1000 { p with A := a } = lum1000 p := rfl

/-- The luminance of R500, a rational, is a thousandth of the model's integer. -/
theorem luminance_eq_lum1000_div (p : Pixel) :
    (299 / 1000 : ℚ) * (p.R.toNat : ℚ) + (587 / 1000 : ℚ) * (p.G.toNat : ℚ) + (114 / 1000 : ℚ) * (p.B.toNat : ℚ) =
      (lum1000 p : ℚ) / 1000 := by
  rw [lum1000]
  push_cast
  ring

theorem lum1000_div_lt_iff (p : Pixel) (thr : Nat) : (lum1000 p : ℚ) / 1000 < (thr : ℚ) ↔ lum1000 p < 1000 * thr := by
  rw [div_lt_iff₀' (by norm_num)]
  exact_mod_cast Iff.rfl

/-- Settles O32: the rational comparison is the integer one multiplied by 1000. -/
theorem darkIsTheExactComparison : Obligations.DarkIsTheExactComparison := by
  intro thr p
  refine ⟨rfl, lum1000_le p, lum1000_grey, lum1000_with_alpha p, ?_, isDark_iff thr p⟩
  rw [luminance_eq_lum1000_div, lum1000_div_lt_iff, isDark_iff]

end Sys2Proof.Machine
end

section
/-! SUPPORT. Alpha reaches no colour byte: two images with the same colours keep them the same through the diffuser, the
dither step and the pass (R503, R554, R605, O44). -/
namespace Sys2Proof.Machine

/-! ## Alpha in the procedures on one pixel -/

/-- The thresholder decides by the colours and passes alpha through (R502, R503). -/
theorem thresholdPixel_with_alpha (thr : Nat) (p : Pixel) (a : Byte) :
    thresholdPixel thr { p with A := a } = { thresholdPixel thr p with A := a } := by
  have hdark : isDark thr { p with A := a } = isDark thr p := by rw [isDark, lum1000_with_alpha, isDark]
  rw [thresholdPixel, thresholdPixel, hdark]
  split <;> rfl

/-- The error vector has no alpha, so the diffuser reads none of its two pixels (R550, R554). -/
theorem State.diffuse_with_alpha (s : State) (o q : Pixel) (a b : Byte) (x y w h : Nat) :
    s.diffuse { o with A := a } { q with A := b } x y w h = s.diffuse o q x y w h := rfl

/-- A pixel's first three bytes are its colour channels (R204, R300). -/
theorem State.readByte_channel (s : State) (b : Buf) (w x y : Nat) {k : Nat} (hk : k < 3) :
    s.readByte b (pixelIndex w x y + k) = channelOf (s.readPixel b w x y) k := by
  interval_cases k <;> rfl

/-- A byte of the image that is not an alpha is a colour byte of one of its pixels (R204). -/
theorem exists_pixelIndex_add {w h j : Nat} (hj : j < 4 * w * h) (halpha : j % 4 ≠ 3) :
    ∃ x y k, x < w ∧ y < h ∧ k < 3 ∧ j = pixelIndex w x y + k := by
  have hpix : j / 4 < w * h := by
    rw [Nat.mul_assoc] at hj
    omega
  have hw : 0 < w := Nat.pos_of_mul_pos_right (Nat.zero_lt_of_lt hpix)
  refine ⟨j / 4 % w, j / 4 / w, j % 4, Nat.mod_lt _ hw, Nat.div_lt_of_lt_mul hpix, by omega, ?_⟩
  rw [pixelIndex, Nat.div_add_mod', Nat.div_add_mod]

/-! ## Two states with the same colours -/

/-- The two states agree on all the pass reads of the first `n` bytes of `WORK`, the alpha bytes apart. -/
structure SameColours (n : Nat) (s t : State) : Prop where
  /-- The tie rule and the shape of the kernel array are the same (R11, R10). -/
  params : t.params = s.params
  /-- The kernel and the threshold are the same (R450, R126). -/
  cfg : t.cfg = s.cfg
  /-- Every colour byte is the same. -/
  byte : ∀ j, j < n → j % 4 ≠ 3 → t.readByte .work j = s.readByte .work j

/-- The diffusion of one error vector: a colour byte it leaves depends on that byte alone (R554). -/
theorem SameColours.diffuse {n : Nat} {s t : State} (hst : SameColours n s t) (o q : Pixel) (x y w h : Nat) :
    SameColours n (s.diffuse o q x y w h) (t.diffuse o q x y w h) := by
  have hs := s.diffuse_onlyWork o q x y w h
  have ht := t.diffuse_onlyWork o q x y w h
  refine ⟨by rw [ht.params, hs.params, hst.params], by rw [ht.cfg, hs.cfg, hst.cfg], fun j hj halpha => ?_⟩
  have hat : SameDiffusionAt j s t := ⟨hst.params, hst.cfg, hst.byte j hj halpha⟩
  exact (hat.diffuse o q x y w h).byte

/-- A pixel of the one image is that of the other with its own alpha. -/
theorem SameColours.readPixel {w h : Nat} {s t : State} (hst : SameColours (4 * w * h) s t) {x y : Nat} (hx : x < w)
    (hy : y < h) :
    t.readPixel .work w x y = { s.readPixel .work w x y with A := (t.readPixel .work w x y).A } := by
  have hin := pixelIndex_bound w h x y hx hy
  have hbyte : ∀ k, k < 3 → t.readByte .work (pixelIndex w x y + k) = s.readByte .work (pixelIndex w x y + k) :=
    fun k hk => hst.byte _ (by omega) (by rw [pixelIndex]; omega)
  have hR := hbyte 0 (by decide)
  rw [Nat.add_zero] at hR
  simp only [State.readPixel, hR, hbyte 1 (by decide), hbyte 2 (by decide)]

/-- The step at a pixel keeps the colours the same: its error and the colours it stores read no alpha (R602). -/
theorem SameColours.ditherStep {w h : Nat} {s t : State} (hst : SameColours (4 * w * h) s t) {x y : Nat} (hx : x < w)
    (hy : y < h) : SameColours (4 * w * h) (s.ditherStep w h x y) (t.ditherStep w h x y) := by
  have hs := s.ditherStep_onlyWork w h x y hx hy
  have ht := t.ditherStep_onlyWork w h x y hx hy
  have hthr : t.threshold = s.threshold := by rw [State.threshold, State.threshold, hst.cfg]
  have hp := hst.readPixel hx hy
  refine ⟨by rw [ht.params, hs.params, hst.params], by rw [ht.cfg, hs.cfg, hst.cfg], fun j hj halpha => ?_⟩
  by_cases hown : pixelIndex w x y ≤ j ∧ j < pixelIndex w x y + 4
  · obtain ⟨k, rfl⟩ := Nat.exists_eq_add_of_le hown.1
    have hk : k < 3 := by rw [pixelIndex] at halpha hown; omega
    rw [State.readByte_channel _ _ _ _ _ hk, State.readByte_channel _ _ _ _ _ hk, State.ditherStep_readPixel,
      State.ditherStep_readPixel, channelOf_thresholdPixel, channelOf_thresholdPixel, hthr, hp, lum1000_with_alpha]
  · have hother : j < pixelIndex w x y ∨ pixelIndex w x y + 4 ≤ j := by omega
    rw [t.ditherStep_readByte_other w h x y hother, s.ditherStep_readByte_other w h x y hother, hp, hthr,
      thresholdPixel_with_alpha, State.diffuse_with_alpha]
    exact (hst.diffuse _ _ x y w h).byte j hj halpha

/-- So does the pass (R601). -/
theorem SameColours.ditherPass {w h : Nat} {s t : State} (hst : SameColours (4 * w * h) s t) :
    SameColours (4 * w * h) (s.ditherPass w h) (t.ditherPass w h) :=
  forRange_rel _ _ _ _ s t hst fun _ hy _ _ hrow => forRange_rel _ _ _ _ _ _ hrow fun _ hx _ _ hab =>
    hab.ditherStep hx hy

/-- The copies of two images with the same colours have the same colours (R557, R600). -/
theorem SameColours.copyImage {s t : State} {w h : Nat} (hp : t.params = s.params) (hc : t.cfg = s.cfg)
    (hin : ∀ x y k, x < w → y < h → k < 3 →
      t.readByte .input (pixelIndex w x y + k) = s.readByte .input (pixelIndex w x y + k)) :
    SameColours (4 * w * h) (s.copyImage (4 * w * h)) (t.copyImage (4 * w * h)) := by
  have hs := s.copyImage_onlyWork (4 * w * h)
  have ht := t.copyImage_onlyWork (4 * w * h)
  refine ⟨by rw [ht.params, hs.params, hp], by rw [ht.cfg, hs.cfg, hc], fun j hj halpha => ?_⟩
  rw [State.copyImage_readByte, State.copyImage_readByte, if_pos hj, if_pos hj]
  obtain ⟨x, y, k, hx, hy, hk, rfl⟩ := exists_pixelIndex_add hj halpha
  exact hin x y k hx hy hk

/-- Settles O44: the copies have the same colours, and the pass keeps them the same. -/
theorem ditherColoursIgnoreAlpha : Obligations.DitherColoursIgnoreAlpha := by
  intro a b hparams hcfg hwidth hheight hlen hin ready
  have hw : a.imageW = b.imageW := congrArg BitVec.toNat hwidth
  have hh : a.imageH = b.imageH := congrArg BitVec.toNat hheight
  have readyB : b.imageReady b.inLen := by
    simpa only [State.imageReady, State.sizeLegal, hparams, hw, hh, hlen] using ready
  refine ⟨_, _, exec_dither_ready ready, exec_dither_ready readyB, fun x y k hx hy hk => ?_⟩
  have hidx := pixelIndex_bound _ _ x y hx hy
  rw [State.setWorkLen_readByte, State.setWorkLen_readByte, ← hw, ← hh]
  exact (SameColours.copyImage hparams hcfg hin).ditherPass.byte _ (by omega) (by rw [pixelIndex]; omega)

end Sys2Proof.Machine
end

section
/-! SUPPORT. `DIFFUSE`'s three checks, passed and failed (R558, R803, R804, R807, R810, O36). -/
namespace Sys2Proof.Machine

theorem exec_diffuse_ready {s : State} (h : s.imageReady s.workLen) (hx : s.posX.toNat < s.imageW)
    (hy : s.posY.toNat < s.imageH) :
    exec .diffuse s = .next (s.diffuse (pixelOfWord s.pixOrig) (pixelOfWord s.pixQuant) s.posX.toNat s.posY.toNat
      s.imageW s.imageH) := by
  obtain ⟨size, hlen⟩ := h
  rw [exec_diffuse_eq, State.runCommand_pass]
  simp [firstCause, s.badDimension_eq_false.mpr size, (s.badLength_eq_false _).mpr hlen,
    s.badPosition_eq_false.mpr ⟨hx, hy⟩]

theorem State.badDimension_eq_true (s : State) : s.badDimension = true ↔ ¬ s.sizeLegal := by
  rw [State.sizeLegal, ← s.badDimension_eq_false, Bool.not_eq_false]

theorem State.badLength_eq_true (s : State) (len : Word) :
    s.badLength len = true ↔ len.toNat ≠ 4 * s.imageW * s.imageH := by
  rw [Ne, ← s.badLength_eq_false, Bool.not_eq_false]

theorem State.badPosition_eq_true (s : State) :
    s.badPosition = true ↔ s.imageW ≤ s.posX.toNat ∨ s.imageH ≤ s.posY.toNat := decide_eq_true_iff

/-- Settles O36: in each clause the checks before the named one pass, so its cause is the first of the list. -/
theorem diffuseFaultsInOrder : Obligations.DiffuseFaultsInOrder := by
  intro s
  rw [exec_diffuse_eq]
  refine ⟨fun size => ?_, fun size hlen => ?_, fun ⟨size, hlen⟩ hpos => ?_⟩
  · exact State.runCommand_fail _ _ _ _ _ (by rw [firstCause_cons, if_pos (s.badDimension_eq_true.mpr size)])
  · have hsize := s.badDimension_eq_false.mpr size
    exact State.runCommand_fail _ _ _ _ _ (by simp [firstCause_cons, hsize, (s.badLength_eq_true _).mpr hlen])
  · have hsize := s.badDimension_eq_false.mpr size
    have hlength := (s.badLength_eq_false _).mpr hlen
    exact State.runCommand_fail _ _ _ _ _
      (by simp [firstCause_cons, hsize, hlength, s.badPosition_eq_true.mpr hpos])

end Sys2Proof.Machine
end

section
/-! SUPPORT. Each byte the diffuser leaves, in closed form (R550 to R555): a cell's update changes no pixel but the one
it aims at, and at most one cell aims at a pixel. So row 0 and column 0 are spared (R556, O38), and `DIFFUSE` adds to each
channel once (R558, O37). -/
namespace Sys2Proof.Machine

/-- A loop all of whose turns but the one at `k` change nothing is that turn, if it is reached. -/
theorem forRange_eq_turn {α : Type} {n k : Nat} {f : Nat → α → α} (rest : ∀ i, i ≠ k → ∀ v, f i v = v) (a : α) :
    forRange n f a = if k < n then f k a else a := by
  induction n with
  | zero => rfl
  | succ n ih =>
    rw [forRange_succ, ih]
    rcases lt_trichotomy k n with hlt | rfl | hgt
    · rw [rest n hlt.ne', if_pos hlt, if_pos (by omega)]
    · rw [if_neg (lt_irrefl _), if_pos (Nat.lt_succ_self _)]
    · rw [rest n hgt.ne, if_neg (by omega), if_neg (by omega)]

/-! ## The target of a cell -/

/-- A byte lies in one pixel only (R204). -/
theorem pixelIndex_eq_of_mem {w x y tx ty k : Nat} (hx : x < w) (htx : tx < w) (hk : k < 4)
    (hlo : pixelIndex w x y ≤ pixelIndex w tx ty + k) (hhi : pixelIndex w tx ty + k < pixelIndex w x y + 4) :
    x = tx ∧ y = ty := by
  by_contra hne
  have horder : (y < ty ∨ y = ty ∧ x < tx) ∨ (ty < y ∨ ty = y ∧ tx < x) := by omega
  rcases horder with hbefore | hafter
  · have := pixelIndex_add_four_le hx hbefore
    omega
  · have := pixelIndex_add_four_le htx hafter
    omega

/-- Cell `(r, c)` aims at pixel `(tx, ty)`, which is neither in row 0 nor in column 0 (R551, R552). -/
abbrev State.CellAimsAt (s : State) (x y r c tx ty : Nat) : Prop :=
  1 ≤ tx ∧ 1 ≤ ty ∧ s.targetCol x c = tx ∧ targetRow y r = ty

/-- A cell's update changes no pixel but the one it aims at (R552, R553). -/
theorem State.diffuseCell_readByte_of_not_aimed (s : State) (o q : Pixel) {x y w r c tx ty k : Nat} (h : Nat)
    (htx : tx < w) (hk : k < 4) (hmiss : ¬ s.CellAimsAt x y r c tx ty) :
    (s.diffuseCell o q x y w h r c).readByte .work (pixelIndex w tx ty + k) =
      s.readByte .work (pixelIndex w tx ty + k) := by
  rw [State.diffuseCell_readByte]
  refine if_neg fun ⟨hskip, _, hlo, hhi⟩ => hmiss ?_
  obtain ⟨-, hcol, hcolw, hrow, -⟩ := (skipCell_eq_false _ _ _ _ _).mp hskip
  have := pixelIndex_eq_of_mem (by omega) htx hk hlo (by omega)
  omega

/-! ## The top row and the leftmost column -/

/-- No cell aims at row 0 or column 0, so the diffusion changes no byte there (R556). -/
theorem State.diffuse_edge (s : State) (o q : Pixel) (x y : Nat) {w tx ty k : Nat} (h : Nat) (htx : tx < w) (hk : k < 4)
    (hedge : tx = 0 ∨ ty = 0) :
    (s.diffuse o q x y w h).readByte .work (pixelIndex w tx ty + k) = s.readByte .work (pixelIndex w tx ty + k) :=
  s.diffuse_induct (fun t => t.readByte .work (pixelIndex w tx ty + k) = s.readByte .work (pixelIndex w tx ty + k))
    o q x y w h rfl fun _ _ t _ ht =>
      (t.diffuseCell_readByte_of_not_aimed o q h htx hk fun ⟨hx, hy, _⟩ => by omega).trans ht

/-- Settles O38: a pixel of an image of width 1 or height 1 is in column 0 or row 0; a fault changes no byte. -/
theorem diffuseSparesTopRowAndLeftColumn : Obligations.DiffuseSparesTopRowAndLeftColumn := by
  refine ⟨fun s o q x y w h tx ty k htx hty hk hedge => s.diffuse_edge o q x y h htx hk (by omega),
    fun s t hexec tx ty k htx hty hk hedge => ?_⟩
  rcases exec_cases hexec with ⟨cause, rfl⟩ | effect
  · exact s.raise_readByte cause _ _ _
  · cases effect with
    | diffuse _ _ => exact s.diffuse_edge _ _ _ _ _ htx hk (by omega)

/-! ## The one addition to a channel -/

theorem diffusedByte_weight_zero (t : RoundTie) {div : Nat} (hd : 0 < div) (old : Byte) (err : Int) :
    diffusedByte t div old err 0 = old := by
  calc diffusedByte t div old err 0 = diffusedByte t div old 0 err := by
        rw [diffusedByte, diffusedByte, mul_zero, zero_mul]
    _ = old := diffusedByte_error_zero t hd old err

/-- The update of a channel is the rational clamp of R553. -/
theorem toNat_diffusedByte (t : RoundTie) {div : Nat} (hd : 0 < div) (old : Byte) (err wt : Int) :
    ((diffusedByte t div old err wt).toNat : ℤ) =
      clampQ t ((old.toNat : ℚ) + (err : ℚ) * (wt : ℚ) / (div : ℚ)) := by
  have hbyte : clampRatio t ((old.toNat : Int) * div + err * wt) div < 2 ^ 8 :=
    (clampRatio_le _ _ _ hd).trans_lt (by decide)
  have hdiv : (div : ℚ) ≠ 0 := Nat.cast_ne_zero.mpr hd.ne'
  rw [diffusedByte, BitVec.toNat_ofNat, Nat.mod_eq_of_lt hbyte, clampRatio_eq_clampQ _ _ _ hd]
  congr 1
  push_cast
  field_simp

/-- Channel `k` of pixel `(tx, ty)` after cell `(r, c)`, from its value `v` before it (R551 to R553). -/
def State.channelAfterCell (s : State) (o q : Pixel) (x y tx ty k r c : Nat) (v : Byte) : Byte :=
  if s.CellAimsAt x y r c tx ty then
    diffusedByte s.params.roundTie s.divisor v (channelError (channelOf o k) (channelOf q k)) (s.weight r c)
  else v

/-- On the way only `WORK` changes, so every cell does to a channel what it would do to it first. -/
theorem OnlyBuf.channelAfterCell {b : Buf} {n : Nat} {s t : State} (h : OnlyBuf b n s t) (o q : Pixel)
    (x y tx ty k r c : Nat) (v : Byte) :
    t.channelAfterCell o q x y tx ty k r c v = s.channelAfterCell o q x y tx ty k r c v := by
  have hweight : t.weight r c = s.weight r c := by rw [State.weight, State.weight, h.params, h.cfg]
  have haim : t.CellAimsAt x y r c tx ty ↔ s.CellAimsAt x y r c tx ty := by
    rw [State.CellAimsAt, State.CellAimsAt, State.targetCol, State.targetCol, State.anchor, State.anchor, h.cfg]
  rw [State.channelAfterCell, State.channelAfterCell, h.params, h.divisor, hweight]
  exact if_congr haim rfl rfl

theorem State.diffuseCell_channel (s : State) (hd : 0 < s.divisor) (o q : Pixel) {x y w h r c tx ty k : Nat}
    (htx : tx < w) (hty : ty < h) (hk : k < 3) :
    (s.diffuseCell o q x y w h r c).readByte .work (pixelIndex w tx ty + k) =
      s.channelAfterCell o q x y tx ty k r c (s.readByte .work (pixelIndex w tx ty + k)) := by
  by_cases haim : s.CellAimsAt x y r c tx ty
  · rw [State.channelAfterCell, if_pos haim, State.diffuseCell_readByte]
    obtain ⟨hx, hy, hcol, hrow⟩ := haim
    simp only [hcol, hrow, Int.toNat_natCast]
    by_cases hw : s.weight r c = 0
    · rw [hw, diffusedByte_weight_zero _ hd, diffusedByte_weight_zero _ hd, ite_self]
    · rw [if_pos ⟨(skipCell_eq_false _ _ _ _ _).mpr (by omega), trivial, by omega, by omega⟩]
      interval_cases k <;> simp [channelOf]
  · rw [State.channelAfterCell, if_neg haim, s.diffuseCell_readByte_of_not_aimed o q h htx (by omega) haim]

/-- `t` is `s` but for the first `n` bytes of `WORK`, and byte `j` of its `WORK` is `v`. -/
structure HoldsAt (n j : Nat) (s t : State) (v : Byte) : Prop where
  /-- Nothing else has changed. -/
  only : OnlyBuf .work n s t
  /-- The byte reads as `v`. -/
  byte : t.readByte .work j = v

/-- A cell's update on the way does to a channel what it would do to it from the start (R554). -/
theorem HoldsAt.diffuseCell {w h tx ty k : Nat} {s t : State} {v : Byte}
    (hst : HoldsAt (4 * w * h) (pixelIndex w tx ty + k) s t v) (hd : 0 < s.divisor) (o q : Pixel) (x y r c : Nat)
    (htx : tx < w) (hty : ty < h) (hk : k < 3) :
    HoldsAt (4 * w * h) (pixelIndex w tx ty + k) s (t.diffuseCell o q x y w h r c)
      (s.channelAfterCell o q x y tx ty k r c v) := by
  refine ⟨hst.only.trans (t.diffuseCell_onlyWork o q x y w h r c), ?_⟩
  rw [t.diffuseCell_channel (hst.only.divisor ▸ hd) o q htx hty hk, hst.byte, hst.only.channelAfterCell]

/-- A channel goes through the cells row by row, apart from every other byte (R554). -/
theorem State.diffuse_channel (s : State) (hd : 0 < s.divisor) (o q : Pixel) {x y w h tx ty k : Nat}
    (htx : tx < w) (hty : ty < h) (hk : k < 3) :
    (s.diffuse o q x y w h).readByte .work (pixelIndex w tx ty + k) =
      forRange s.cfg.krows.toNat (fun r v => forRange s.cfg.kcols.toNat (s.channelAfterCell o q x y tx ty k r) v)
        (s.readByte .work (pixelIndex w tx ty + k)) := by
  have start : HoldsAt (4 * w * h) (pixelIndex w tx ty + k) s s _ := ⟨OnlyBuf.refl _ _ _, rfl⟩
  exact (forRange_rel (HoldsAt _ _ s) _ _ _ s _ start fun r _ t v hrow =>
    forRange_rel (HoldsAt _ _ s) _ _ _ t v hrow fun c _ _ _ hcell =>
      hcell.diffuseCell hd o q x y r c htx hty hk).byte

/-- Only cell `(ty - y, tx - x + anchor)` can aim at pixel `(tx, ty)`, so its channel changes once or not at all (R551,
R555). -/
theorem State.forRange_channelAfterCell (s : State) (o q : Pixel) (x y tx ty k m n : Nat) (v : Byte) :
    forRange m (fun r v => forRange n (s.channelAfterCell o q x y tx ty k r) v) v =
      if ty - y < m ∧ ((tx : Int) - x + s.anchor).toNat < n then
        s.channelAfterCell o q x y tx ty k (ty - y) ((tx : Int) - x + s.anchor).toNat v
      else v := by
  have hcol : ∀ r c, c ≠ ((tx : Int) - x + s.anchor).toNat → ∀ v, s.channelAfterCell o q x y tx ty k r c v = v :=
    fun r c hc v => if_neg fun ⟨_, _, htc, _⟩ => hc (by rw [State.targetCol] at htc; omega)
  have hrow : ∀ r, r ≠ ty - y → ∀ v, forRange n (s.channelAfterCell o q x y tx ty k r) v = v := fun r hr v => by
    have hmiss : ∀ c v, s.channelAfterCell o q x y tx ty k r c v = v :=
      fun c v => if_neg fun ⟨_, _, _, htr⟩ => hr (by rw [targetRow] at htr; omega)
    rw [forRange_eq_turn (hcol r), hmiss, ite_self]
  rw [forRange_eq_turn hrow, forRange_eq_turn (hcol _), ite_and]

/-- Settles O37: the diffusion's bytes one kind after the other; a channel's by the one cell that can aim at it. -/
theorem diffuseUpdatesEachTargetOnce : Obligations.DiffuseUpdatesEachTargetOnce := by
  intro s ready hposx hposy hd
  have honly := s.diffuse_onlyWork (pixelOfWord s.pixOrig) (pixelOfWord s.pixQuant) s.posX.toNat s.posY.toNat
    s.imageW s.imageH
  refine ⟨_, exec_diffuse_ready ready hposx hposy, ?_, fun tx ty k htx hty hk => ?_, fun tx ty _ _ => ?_,
    fun j hj => honly.readByte j (.inr hj), fun i => honly.readByte i (.inl (by decide)),
    fun i => honly.readByte i (.inl (by decide))⟩
  · obtain ⟨m, hm⟩ := honly.exists_setBuf
    rw [hm]
    rfl
  · intro col old err
    rw [s.diffuse_channel hd _ _ htx hty hk, State.forRange_channelAfterCell, State.channelAfterCell, ← ite_and]
    by_cases haim : 1 ≤ tx ∧ 1 ≤ ty ∧ s.posY.toNat ≤ ty ∧ ty - s.posY.toNat < s.cfg.krows.toNat ∧
        0 ≤ col ∧ col < (s.cfg.kcols.toNat : Int)
    · rw [if_pos haim, if_pos, toNat_diffusedByte _ hd]
      · rfl
      · simp only [State.CellAimsAt, State.targetCol, targetRow]
        omega
    · rw [if_neg haim, if_neg]
      simp only [State.CellAimsAt, State.targetCol, targetRow]
      omega
  · exact s.diffuse_alpha _ _ _ _ _ _ (by rw [pixelIndex]; omega)

end Sys2Proof.Machine
end

section
/-! SUPPORT. The dither pass on the top row and the leftmost column: no step but a pixel's own changes it (R556, R602,
O45). -/
namespace Sys2Proof.Machine

/-- The step at another pixel changes no pixel of row 0 or column 0 (R556, R602). -/
theorem State.ditherStep_readPixel_edge (s : State) {w x y tx ty : Nat} (h : Nat) (hx : x < w) (htx : tx < w)
    (hedge : tx = 0 ∨ ty = 0) (hother : ¬ (x = tx ∧ y = ty)) :
    (s.ditherStep w h x y).readPixel .work w tx ty = s.readPixel .work w tx ty := by
  refine State.readPixel_congr fun k hk => ?_
  have hout : pixelIndex w tx ty + k < pixelIndex w x y ∨ pixelIndex w x y + 4 ≤ pixelIndex w tx ty + k := by
    by_contra hin
    exact hother (pixelIndex_eq_of_mem hx htx hk (by omega) (by omega))
  rw [s.ditherStep_readByte_other w h x y hout, s.diffuse_edge _ _ x y h htx hk hedge]

/-- The pass leaves each pixel of row 0 and column 0 as the thresholded value of the one it began with (R556, R601). -/
theorem State.ditherPass_readPixel_edge (s : State) {w h x y : Nat} (hx : x < w) (hy : y < h) (hedge : x = 0 ∨ y = 0) :
    (s.ditherPass w h).readPixel .work w x y = thresholdPixel s.threshold (s.readPixel .work w x y) := by
  have hpass := s.ditherPass_induct
    (fun k t => t.readPixel .work w x y =
      if y * w + x < k then thresholdPixel s.threshold (s.readPixel .work w x y) else s.readPixel .work w x y) w h
    (if_neg (Nat.not_lt_zero _)).symm fun cx cy t hcx _ hst ht => ?_
  · rw [hpass, if_pos]
    calc y * w + x < (y + 1) * w := by rw [Nat.succ_mul]; omega
      _ ≤ h * w := Nat.mul_le_mul_right w hy
  · by_cases hown : cx = x ∧ cy = y
    · obtain ⟨rfl, rfl⟩ := hown
      rw [if_neg (lt_irrefl _)] at ht
      rw [t.ditherStep_readPixel, ht, hst.threshold, if_pos (Nat.lt_succ_self _)]
    · have hne : y * w + x ≠ cy * w + cx := fun e => hown (pixelIndex_eq_of_mem (k := 0) hcx hx (by decide)
        (by rw [pixelIndex, pixelIndex]; omega) (by rw [pixelIndex, pixelIndex]; omega))
      rw [t.ditherStep_readPixel_edge h hcx hx hedge hown, ht]
      exact if_congr (by omega) rfl rfl

/-- Settles O45: the copy brings the pixel of `IN`, and the pass thresholds it alone. -/
theorem edgePixelsAreThresholdedAlone : Obligations.EdgePixelsAreThresholdedAlone := by
  intro s _ ready
  refine ⟨_, exec_dither_ready ready, fun x y hx hy hedge => ?_⟩
  have hread : ∀ t : State, (t.setWorkLen s.inLen).readPixel .work s.imageW x y = t.readPixel .work s.imageW x y :=
    fun t => by simp only [State.readPixel, State.setWorkLen_readByte]
  rw [hread, State.dither, State.ditherPass_readPixel_edge _ hx hy hedge, s.copyImage_readPixel hx hy,
    (s.copyImage_onlyWork _).threshold]

end Sys2Proof.Machine
end

section
/-! SUPPORT. The dither pass as one cursor over the pixels in raster order (R600, R601, O40). -/
namespace Sys2Proof.Machine

/-! ## Nested loops as one -/

/-- Two bodies that agree on the range make the same loop. -/
theorem forRange_congr {α : Type} {n : Nat} {f g : Nat → α → α} (hfg : ∀ k, k < n → ∀ a, f k a = g k a) (a : α) :
    forRange n f a = forRange n g a :=
  forRange_rel Eq n f g a a rfl fun k hk _ y hxy => hxy ▸ hfg k hk y

/-- A loop of `m + n` turns is one of `m` and then one of `n` that goes on counting. -/
theorem forRange_add {α : Type} (m n : Nat) (f : Nat → α → α) (a : α) :
    forRange (m + n) f a = forRange n (fun k => f (m + k)) (forRange m f a) := by
  induction n with
  | zero => rfl
  | succ n ih => rw [← Nat.add_assoc, forRange_succ, forRange_succ, ih]

/-- Rows of `w` turns each are one loop, whose turn `k` stands at column `k mod w` of row `k div w`. -/
theorem forRange_nested {α : Type} (w h : Nat) (f : Nat → Nat → α → α) (a : α) :
    forRange h (fun y => forRange w (fun x => f x y)) a = forRange (w * h) (fun k => f (k % w) (k / w)) a := by
  induction h with
  | zero => rfl
  | succ h ih =>
    rw [forRange_succ, ih, Nat.mul_succ, forRange_add]
    refine forRange_congr (fun x hx b => ?_) _
    have hcol : (w * h + x) % w = x := by rw [Nat.mul_add_mod, Nat.mod_eq_of_lt hx]
    have hrow : (w * h + x) / w = h := by
      rw [Nat.mul_add_div (Nat.zero_lt_of_lt hx), Nat.div_eq_of_lt hx, Nat.add_zero]
    rw [hcol, hrow]

/-! ## The cursor -/

/-- The state after the first `k` pixels of the pass in raster order (R601). -/
def State.ditherWalk (s : State) (w h k : Nat) : State := forRange k (fun i t => t.ditherStep w h (i % w) (i / w)) s

theorem State.ditherWalk_succ (s : State) (w h k : Nat) :
    s.ditherWalk w h (k + 1) = (s.ditherWalk w h k).ditherStep w h (k % w) (k / w) := rfl

/-- The pass is the walk over all the pixels (R601). -/
theorem State.ditherPass_eq_ditherWalk (s : State) (w h : Nat) : s.ditherPass w h = s.ditherWalk w h (w * h) :=
  forRange_nested w h (fun x y (t : State) => t.ditherStep w h x y) s

/-- Settles O40: the sequence is the walk from the fresh copy, and `DITHER` runs it to the last pixel. -/
theorem ditherWalksTheRaster : Obligations.DitherWalksTheRaster := by
  intro s ready
  refine ⟨(s.copyImage (4 * s.imageW * s.imageH)).ditherWalk s.imageW s.imageH, rfl,
    fun k _ => State.ditherWalk_succ _ _ _ k, ?_⟩
  rw [exec_dither_ready ready, State.dither, State.ditherPass_eq_ditherWalk]

end Sys2Proof.Machine
end

section
/-! SUPPORT. What the dither pass reads: two blocks with the same image bytes, configuration and parameters have the same
bytes in `WORK` after it (R606, O43). -/
namespace Sys2Proof.Machine

/-- The alpha bytes of the image come to `WORK` from `IN` unchanged (R600, R605). -/
theorem State.dither_alpha (s : State) {w h j : Nat} (hj : j < 4 * w * h) (halpha : j % 4 = 3) :
    (s.dither w h).readByte .work j = s.readByte .input j := by
  rw [State.dither, State.ditherPass_alpha _ _ _ halpha, State.copyImage_readByte, if_pos hj]

/-- `dither(W, H)` computes the image's bytes from `IN`, the configuration and the parameters alone (R606): the alpha
bytes are those of `IN`, and the colours depend on nothing else. -/
theorem State.dither_readByte_congr {s t : State} {w h j : Nat} (hp : t.params = s.params) (hc : t.cfg = s.cfg)
    (hin : ∀ i, i < 4 * w * h → t.readByte .input i = s.readByte .input i) (hj : j < 4 * w * h) :
    (t.dither w h).readByte .work j = (s.dither w h).readByte .work j := by
  by_cases halpha : j % 4 = 3
  · rw [t.dither_alpha hj halpha, s.dither_alpha hj halpha, hin j hj]
  · have hcopy : SameColours (4 * w * h) (s.copyImage (4 * w * h)) (t.copyImage (4 * w * h)) :=
      SameColours.copyImage hp hc fun x y k hx hy hk => hin _ <| by
        have := pixelIndex_bound w h x y hx hy
        omega
    exact hcopy.ditherPass.byte j hj halpha

/-- Whether an image is ready depends on its length, the size and the parameters (R803, R804). -/
theorem State.imageReady_congr {s t : State} {len : Word} (hp : t.params = s.params) (hw : t.imageW = s.imageW)
    (hh : t.imageH = s.imageH) : t.imageReady len ↔ s.imageReady len := by
  simp only [State.imageReady, State.sizeLegal, hp, hw, hh]

/-- Settles O43: both blocks pass the checks, and the pass gives the same bytes on both. -/
theorem ditherDependsOnlyOnImageAndConfiguration : Obligations.DitherDependsOnlyOnImageAndConfiguration := by
  intro a b hparams hcfg hwidth hheight hlen hin ready
  have hw : a.imageW = b.imageW := congrArg BitVec.toNat hwidth
  have hh : a.imageH = b.imageH := congrArg BitVec.toNat hheight
  have readyB : b.imageReady b.inLen := hlen ▸ (State.imageReady_congr hparams hw hh).mp ready
  refine ⟨_, _, exec_dither_ready ready, exec_dither_ready readyB, hlen, fun j hj => ?_⟩
  rw [State.setWorkLen_readByte, State.setWorkLen_readByte, ← hw, ← hh]
  exact State.dither_readByte_congr hparams hcfg hin hj

end Sys2Proof.Machine
end

section
/-! SUPPORT. `PACK`'s three checks, the `ARG` check first (R654, R803, R804, R807, R810, O48). -/
namespace Sys2Proof.Machine

/-- Settles O48: in each clause the checks before the named one pass, so its cause is the first of the list. -/
theorem packFaultsInOrder : Obligations.PackFaultsInOrder := by
  intro s src
  rw [exec_pack_eq]
  refine ⟨fun hsel => ?_, fun hsel size => ?_, fun hsel size hlen => ?_⟩
  · exact State.runCommand_fail _ _ _ _ _ (if_pos (decide_eq_true hsel))
  · have harg : decide (1 < src) = false := decide_eq_false (by omega)
    exact State.runCommand_fail _ _ _ _ _ (by simp [firstCause_cons, harg, s.badDimension_eq_true.mpr size])
  · have harg : decide (1 < src) = false := decide_eq_false (by omega)
    have hsize := s.badDimension_eq_false.mpr size
    have hlength : s.badLength (s.packLength src) = true := (s.badLength_eq_true _).mpr hlen
    exact State.runCommand_fail _ _ _ _ _ (by simp [firstCause_cons, harg, hsize, hlength])

end Sys2Proof.Machine
end

section
/-! SUPPORT. Thresholding again what was thresholded changes nothing, and of such pixels the black ones are the dark ones
(R501, R502); so the packer repeats the decision of the dither pass (R655, O50), and a uniform image gives uniform bits
(R651, O51). -/
namespace Sys2Proof.Machine

/-! ## Black and white pixels under the thresholder -/

theorem isDark_of_isBlack {thr : Nat} {p : Pixel} (hthr : 1 ≤ thr) (hp : p.isBlack) : isDark thr p = true := by
  obtain ⟨hR, hG, hB⟩ := hp
  have hlum : lum1000 p = 0 := by simp [lum1000, hR, hG, hB]
  rw [isDark_iff]
  omega

theorem isDark_of_isWhite {thr : Nat} {p : Pixel} (hthr : thr ≤ 255) (hp : p.isWhite) : isDark thr p = false := by
  obtain ⟨hR, hG, hB⟩ := hp
  have hlum : lum1000 p = 255000 := by simp [lum1000, hR, hG, hB]
  rw [Bool.eq_false_iff, Ne, isDark_iff]
  omega

theorem not_isBlack_of_isWhite {p : Pixel} (hp : p.isWhite) : ¬ p.isBlack := by
  obtain ⟨hR, -⟩ := hp
  rintro ⟨hR0, -⟩
  exact absurd (hR.symm.trans hR0) (by decide)

theorem thresholdPixel_of_isBlack {thr : Nat} {p : Pixel} (hthr : 1 ≤ thr) (hp : p.isBlack) :
    thresholdPixel thr p = p := by
  rw [thresholdPixel, if_pos (isDark_of_isBlack hthr hp)]
  obtain ⟨R, G, B, A⟩ := p
  obtain ⟨rfl, rfl, rfl⟩ := hp
  rfl

theorem thresholdPixel_of_isWhite {thr : Nat} {p : Pixel} (hthr : thr ≤ 255) (hp : p.isWhite) :
    thresholdPixel thr p = p := by
  rw [thresholdPixel, if_neg (Bool.eq_false_iff.mp (isDark_of_isWhite hthr hp))]
  obtain ⟨R, G, B, A⟩ := p
  obtain ⟨rfl, rfl, rfl⟩ := hp
  rfl

/-- The thresholder's own pixels pass it unchanged, at threshold 0 too, where no pixel is dark (R502). -/
theorem thresholdPixel_idem {thr : Nat} (hthr : thr ≤ 255) (p : Pixel) :
    thresholdPixel thr (thresholdPixel thr p) = thresholdPixel thr p := by
  rcases thresholdPixel_cases thr p with ⟨hdark, hq⟩ | ⟨-, hq⟩
  · have hpos : 1 ≤ thr := by
      have := (isDark_iff thr p).mp hdark
      omega
    exact thresholdPixel_of_isBlack hpos (by simp [hq])
  · exact thresholdPixel_of_isWhite hthr (by simp [hq])

/-- A pixel the thresholder leaves as it is, is dark exactly when it is black (R501, R502). -/
theorem isDark_iff_isBlack_of_fixed {thr : Nat} {p : Pixel} (hfix : thresholdPixel thr p = p) :
    isDark thr p = true ↔ p.isBlack := by
  rcases thresholdPixel_cases thr p with ⟨hdark, hq⟩ | ⟨hlight, hq⟩
  · have hblack : p.isBlack := by rw [← hfix, hq]; exact ⟨rfl, rfl, rfl⟩
    exact iff_of_true hdark hblack
  · have hwhite : p.isWhite := by rw [← hfix, hq]; exact ⟨rfl, rfl, rfl⟩
    exact iff_of_false (Bool.eq_false_iff.mp hlight) (not_isBlack_of_isWhite hwhite)

/-! ## The image a dither pass leaves -/

/-- Under a legal configuration every pixel of the pass's image is its own thresholded value: its step stored one, and no
later step changes it (R460, R602). -/
theorem State.ConfigInv.ditherPass_thresholded {s : State} (hc : s.ConfigInv) {w h x y : Nat} (hx : x < w) (hy : y < h) :
    thresholdPixel s.threshold ((s.ditherPass w h).readPixel .work w x y) = (s.ditherPass w h).readPixel .work w x y := by
  refine s.ditherPass_induct
    (fun k t => y * w + x < k → thresholdPixel s.threshold (t.readPixel .work w x y) = t.readPixel .work w x y) w h
    (fun hk => absurd hk (Nat.not_lt_zero _)) (fun cx cy t hcx _ hst ht hk => ?_) ?_
  · rcases Nat.lt_succ_iff_lt_or_eq.mp hk with hbefore | hown
    · have hsame := State.readPixel_congr (b := .work) (w := w) (x := x) (y := y) fun k hk4 =>
        (hc.of_eq hst.params hst.cfg).ditherStep_visited h hcx (y := cy)
          (show pixelIndex w x y + k < pixelIndex w cx cy by rw [pixelIndex, pixelIndex]; omega)
      rw [hsame]
      exact ht hbefore
    · obtain ⟨rfl, rfl⟩ := pixelIndex_eq_of_mem (k := 0) (y := y) (ty := cy) hx hcx (by decide)
        (by rw [pixelIndex, pixelIndex]; omega) (by rw [pixelIndex, pixelIndex]; omega)
      rw [t.ditherStep_readPixel, hst.threshold, thresholdPixel_idem hc.thr]
  · calc y * w + x < (y + 1) * w := by rw [Nat.succ_mul]; omega
      _ ≤ h * w := Nat.mul_le_mul_right w hy

/-! ## `RASTER` as `DITHER` and `PACK WORK` -/

/-- The state `DITHER` leaves when its checks pass (R607). -/
def State.dithered (s : State) : State := (s.dither s.imageW s.imageH).setWorkLen s.inLen

theorem exec_dither_dithered {s : State} (h : s.imageReady s.inLen) : exec .dither s = .next s.dithered :=
  exec_dither_ready h

/-- `DITHER` changes nothing but `WORK` and `WORK_LEN` (R607). -/
theorem State.dithered_frame (s : State) :
    s.dithered = { s with workBuf := s.dithered.workBuf, workLen := s.inLen } :=
  ((s.dither_onlyWork s.imageW s.imageH).setWorkLen_frame s.inLen).1

theorem State.dithered_imageW (s : State) : s.dithered.imageW = s.imageW := by
  rw [s.dithered_frame]; rfl

theorem State.dithered_imageH (s : State) : s.dithered.imageH = s.imageH := by
  rw [s.dithered_frame]; rfl

theorem State.dithered_threshold (s : State) : s.dithered.threshold = s.threshold := by
  rw [s.dithered_frame]; rfl

/-- After `DITHER` the image in `WORK` is ready to be packed (R607, R654). -/
theorem State.dithered_imageReady {s : State} (h : s.imageReady s.inLen) : s.dithered.imageReady s.dithered.workLen :=
  (State.imageReady_congr (by rw [s.dithered_frame]) s.dithered_imageW s.dithered_imageH).mpr h

theorem State.ConfigInv.dithered_thresholded {s : State} (hc : s.ConfigInv) {x y : Nat} (hx : x < s.imageW)
    (hy : y < s.imageH) :
    thresholdPixel s.threshold (s.dithered.readPixel .work s.imageW x y) = s.dithered.readPixel .work s.imageW x y := by
  have hcopy := s.copyImage_onlyWork (4 * s.imageW * s.imageH)
  have hpass := (hc.of_eq hcopy.params hcopy.cfg).ditherPass_thresholded hx hy
  rw [hcopy.threshold] at hpass
  simpa only [State.readPixel, State.dithered, State.setWorkLen_readByte, State.dither] using hpass

/-- `RASTER` with its checks passed is `PACK WORK` on what `DITHER` leaves (R700, R701). -/
theorem exec_raster_ready {s : State} (h : s.imageReady s.inLen) : exec .raster s = exec (.pack 1) s.dithered := by
  have hpacked : s.dithered.packedBytes = s.packedBytes := by
    rw [State.packedBytes, s.dithered_imageW, s.dithered_imageH, State.packedBytes]
  rw [exec_pack_ready (by decide) (State.dithered_imageReady h), s.dithered_imageW, s.dithered_imageH, hpacked,
    exec_raster_eq, State.runCommand_pass _ _ _ _ (State.firstCause_imageReady h), State.raster, State.ofNat_imageBytes h]
  rfl

/-- Packing what `DITHER` left: a pixel's bit is 1 exactly when the pass left the pixel black, and `WORK` and its length
stay (R655). -/
theorem State.ConfigInv.pack_dithered {s : State} (hc : s.ConfigInv) (h : s.imageReady s.inLen) :
    ∃ t, exec (.pack 1) s.dithered = .next t ∧ t.outLen.toNat = (s.imageW + 7) / 8 * s.imageH ∧ t.workLen = s.inLen ∧
      SameBytes .work s.dithered t ∧ ∀ x y, x < s.imageW → y < s.imageH →
        (t.outBit s.imageW x y = true ↔ (s.dithered.readPixel .work s.imageW x y).isBlack) := by
  obtain ⟨t, hpack, hlen, hbits, -, -, hframe, -, hwork⟩ :=
    packSetsOneBitPerPixel s.dithered 1 (by decide) (State.dithered_imageReady h)
  rw [s.dithered_imageW, s.dithered_imageH] at hlen hbits
  refine ⟨t, hpack, hlen, by rw [hframe]; rfl, hwork, fun x y hx hy => ?_⟩
  rw [hbits x y hx hy, ← isDark_iff_isBlack_of_fixed (hc.dithered_thresholded hx hy), ← s.dithered_threshold]
  rfl

/-- Settles O50: `RASTER` ends in the state `PACK WORK` reaches from the dithered one, whose `WORK` it keeps. -/
theorem rasterBitsAreTheBlackPixels : Obligations.RasterBitsAreTheBlackPixels := by
  intro s hc ready
  obtain ⟨t, hpack, hlen, hworkLen, hwork, hbits⟩ := hc.pack_dithered ready
  refine ⟨⟨t, (exec_raster_ready ready).trans hpack, hlen, hworkLen, fun x y hx hy => ?_⟩,
    s.dithered, t, exec_dither_dithered ready, hpack, hbits⟩
  rw [State.readPixel_congr fun k _ => hwork _]
  exact hbits x y hx hy

/-- An image of pixels that are their own thresholded values is in `WORK` unchanged after `DITHER`. -/
theorem State.ConfigInv.dithered_readPixel_of_fixed {s : State} (hc : s.ConfigInv) (h : s.imageReady s.inLen)
    (hfix : ∀ x y, x < s.imageW → y < s.imageH →
      thresholdPixel s.threshold (s.readPixel .input s.imageW x y) = s.readPixel .input s.imageW x y)
    {x y : Nat} (hx : x < s.imageW) (hy : y < s.imageH) :
    s.dithered.readPixel .work s.imageW x y = s.readPixel .input s.imageW x y := by
  obtain ⟨t, hrun, hbytes⟩ := thresholdedImagePassesUnchanged s hc h hfix
  cases Host.Outcome.next.inj ((exec_dither_dithered h).symm.trans hrun)
  refine (State.readPixel_congr fun k hk => ?_).trans (s.copyImage_readPixel hx hy)
  have hj : pixelIndex s.imageW x y + k < 4 * s.imageW * s.imageH := by
    have := pixelIndex_bound s.imageW s.imageH x y hx hy
    omega
  rw [hbytes _ hj, State.copyImage_readByte, if_pos hj]

/-- Settles O51: white and, from threshold 1 on, black pixels are their own thresholded values, so the pass leaves the
image as it is and the bits say which of its pixels are black. -/
theorem uniformImagesRasterToUniformBits : Obligations.UniformImagesRasterToUniformBits := by
  intro s hc ready
  obtain ⟨t, hpack, -, -, -, hbits⟩ := hc.pack_dithered ready
  refine ⟨t, (exec_raster_ready ready).trans hpack, fun hwhite x y hx hy => ?_, fun hthr hblack x y hx hy => ?_⟩
  · have hpixel := hc.dithered_readPixel_of_fixed ready
      (fun x y hx hy => thresholdPixel_of_isWhite hc.thr (hwhite x y hx hy)) hx hy
    rw [Bool.eq_false_iff, Ne, hbits x y hx hy, hpixel]
    exact not_isBlack_of_isWhite (hwhite x y hx hy)
  · have hpixel := hc.dithered_readPixel_of_fixed ready
      (fun x y hx hy => thresholdPixel_of_isBlack hthr (hblack x y hx hy)) hx hy
    rw [hbits x y hx hy, hpixel]
    exact hblack x y hx hy

end Sys2Proof.Machine
end

section
/-! SUPPORT. `NOP` and `RASTER` in the whole state (R700 to R702, O20, O49). -/
namespace Sys2Proof.Machine

/-- Settles O20: `NOP` has no check, and its effect is the state itself. -/
theorem nopHasNoEffect : Obligations.NopHasNoEffect :=
  fun s => (exec_nop_eq s).trans (State.runCommand_pass _ _ _ _ rfl)

/-- Settles O49: what `DITHER` leaves is ready to be packed, and `RASTER` is that packing. -/
theorem rasterIsDitherThenPackWork : Obligations.RasterIsDitherThenPackWork := by
  intro s ready
  have hpack := exec_pack_ready (src := 1) (by decide) (State.dithered_imageReady ready)
  exact ⟨_, _, exec_dither_dithered ready, hpack, (exec_raster_ready ready).trans hpack⟩

end Sys2Proof.Machine
end

section
/-! SUPPORT. The host's register accesses: the refusal of commands while a fault is recorded (R704, O7), `GET` (R705, O53)
and `SET` of a read-write register (R706, O54). -/
namespace Sys2Proof.Machine

/-! ## A command word while a fault is recorded -/

/-- While a fault is recorded the write of any word to `CMD` keeps the whole state (R704). -/
theorem hostSet_cmd_faulted {s : State} (w : Word) (fault : s.faulted = true) : hostSet 0 w s = .next s := by
  have hreg : regOfIndex s.params 0 = some .cmd := rfl
  simp only [hostSet, hreg, hostStore, accessOf, issueCommand, fault, if_true]

/-- Settles O7: the recorded fault is still there once the action is taken from the queue. -/
theorem faultedBlockRefusesEveryCommand : Obligations.FaultedBlockRefusesEveryCommand :=
  fun _ w _ hhost fault => (step_action hhost).trans (hostSet_cmd_faulted w fault)

/-! ## `GET` -/

theorem hostGet_assigned {s : State} {j : Nat} {r : Reg} (reg : regOfIndex s.params j = some r) :
    hostGet j s = .next (s.reply (.word (s.readReg r))) := by
  simp only [hostGet, reg]

theorem hostGet_unassigned {s : State} {j : Nat} (reg : regOfIndex s.params j = none) :
    hostGet j s = .next ((s.reply (.word 0)).raise .illegalAccess 0xFF) := by
  simp only [hostGet, reg, State.raiseAccess, State.raise_reply]

/-- No register holds the host's queue. -/
@[simp] theorem State.setHost_readReg (s : State) (v : List HostAction) (r : Reg) :
    (s.setHost v).readReg r = s.readReg r := rfl

/-- `CMD` reads 0 (R103, R705). -/
theorem State.readReg_eq_ite_cmd (s : State) (r : Reg) : s.readReg r = if r = .cmd then 0 else s.readReg r := by
  split
  next hcmd => rw [hcmd]; rfl
  next => rfl

/-- Settles O53: the two branches of `GET`, for the state with the action taken from the queue. -/
theorem getReturnsTheRegister : Obligations.GetReturnsTheRegister := by
  intro s j rest hhost
  rw [step_action hhost]
  refine ⟨fun r reg => ?_, fun reg => hostGet_unassigned reg⟩
  rw [← s.readReg_eq_ite_cmd]
  exact hostGet_assigned reg

/-! ## `SET` of a read-write register -/

/-- A write R706 allows is one store. -/
theorem hostSet_store {s : State} {j : Nat} {v : Word} {r : Reg} (reg : regOfIndex s.params j = some r)
    (access : accessOf r = .rw) (len : r = .inLen → v.toNat ≤ s.params.imageCap) :
    hostSet j v s = .next (s.writeReg r v) := by
  have hcap : ¬ (r = .inLen ∧ s.params.imageCap < v.toNat) := fun ⟨hin, hlt⟩ => not_lt.mpr (len hin) hlt
  simp only [hostSet, reg, hostStore, access, if_neg hcap]

/-- The map gives indices to the cells of `S_KW` and to no others (R122). -/
theorem lt_kernelCells_of_regOfIndex_sKw {p : Params} {j k : Nat} (h : regOfIndex p j = some (.sKw k)) :
    k < p.kernelCells := by
  unfold regOfIndex at h
  split_ifs at h with hlow hcell
  · obtain ⟨l₁, l₂, hl, -⟩ := List.lookup_eq_some_iff.mp h
    have hnot : (j, Reg.sKw k) ∉ namedRegs := by simp [namedRegs]
    exact absurd (hl ▸ by simp) hnot
  · have hk : j - 0x100 = k := by simpa using h
    omega
  · cases h

/-- A store to a cell of `S_KW` is read back from that cell alone (R122, R706). -/
theorem State.readReg_writeReg_sKw_other (s : State) {k : Nat} {r : Reg} (v : Word) (h : r ≠ .sKw k) :
    (s.writeReg (.sKw k) v).readReg r = s.readReg r := by
  cases r with
  | sKw l =>
    have hkl : k ≠ l := fun hkl => h (hkl ▸ rfl)
    simp [State.writeReg, State.readReg, List.getD, List.getElem?_set_ne hkl]
  | _ => rfl

/-- A store to a register changes no other register (R706). -/
theorem State.readReg_writeReg_other (s : State) {r r' : Reg} (v : Word) (h : r' ≠ r) :
    (s.writeReg r v).readReg r' = s.readReg r' := by
  cases r with
  | sKw k => exact s.readReg_writeReg_sKw_other v h
  | _ => cases r' <;> first | rfl | exact absurd rfl h

/-- Settles O54: the step is one store, read back from the register written; the invariant puts a cell's offset inside the
staged array. -/
theorem setStoresOneRegister : Obligations.SetStoresOneRegister := by
  intro s j v r rest inv hhost reg access len
  have hcell : ∀ k, r = .sKw k → k < s.staged.kw.length := fun k hk =>
    (lt_kernelCells_of_regOfIndex_sKw (hk ▸ reg)).trans_eq inv.stagedCells.symm
  refine ⟨(s.setHost rest).writeReg r v, (step_action hhost).trans (hostSet_store reg access len),
    State.readReg_writeReg _ r v access hcell, fun r' hr' => ?_, ?_⟩
  · rw [State.readReg_writeReg_other _ v hr', State.setHost_readReg]
  · simp

end Sys2Proof.Machine
end

section
/-! SUPPORT. The host's queue and its replies along a step (R703, R705, R707, R711, O59). -/
namespace Sys2Proof.Machine

/-- No command touches the host's side of the port (R312). -/
theorem exec_host_replies {i : Instr} {s t : State} (h : exec i s = .next t) :
    t.host = s.host ∧ t.replies = s.replies := by
  obtain ⟨⟨-, -, -, -, -, -, -, -, -, -, -, -, -, -, hhost, hreplies⟩, -⟩ := commandsWriteOnlyTheirResults i s t h
  exact ⟨hhost, hreplies⟩

/-- Doing a host action leaves the queue as it is (R711). -/
theorem HostEffect.host {a : HostAction} {s t : State} (e : HostEffect s a t) : t.host = s.host := by
  cases e with
  | command _ _ run => exact (exec_host_replies run).1
  | _ => simp [State.raiseAccess]

/-- The host actions that are reads and have a reply (R705, R707). -/
abbrev HostAction.IsRead (a : HostAction) : Prop := (∃ j, a = .get j) ∨ ∃ b i, a = .rdb b i

/-- A read adds one reply and any other action none (R705, R707). -/
theorem HostEffect.replies {a : HostAction} {s t : State} (e : HostEffect s a t) :
    (a.IsRead → ∃ r, t.replies = r :: s.replies) ∧ (¬ a.IsRead → t.replies = s.replies) := by
  cases e with
  | command _ _ run => simp [(exec_host_replies run).2]
  | _ => simp [State.raiseAccess]

/-- Settles O59: a step with an action to come is that action done on the rest of the queue. -/
theorem eachStepTakesOneHostAction : Obligations.EachStepTakesOneHostAction := by
  intro s t a rest hhost h
  rw [step_action hhost] at h
  have e := hostAct_effect h
  obtain ⟨hread, hother⟩ := e.replies
  refine ⟨e.host, hread, fun hget hrdb => hother ?_⟩
  rintro (⟨j, rfl⟩ | ⟨b, i, rfl⟩)
  · exact hget j rfl
  · exact hrdb b i rfl

end Sys2Proof.Machine
end

section
/-! SUPPORT. Fault entry in its two cases (R811), the number it writes to `STATUS` (R104, R801, O9), the illegal words
(R802, O6), the only way out of a fault (R814, O12), and idleness (R823, R902, O8). -/
namespace Sys2Proof.Machine

/-! ## Fault entry -/

theorem State.raise_clean {s : State} (clean : s.clean) (c : Cause) (opc : BitVec 8) :
    s.raise c opc = s.setStatus (faultStatus c opc) := by
  rw [State.raise_eq, clean, if_neg Bool.false_ne_true]

theorem State.raise_faulted {s : State} (fault : s.faulted = true) (c : Cause) (opc : BitVec 8) :
    s.raise c opc = s :=
  if_pos fault

/-- After fault entry a fault is recorded, the new one or the one before it (R811). -/
theorem State.faulted_raise (s : State) (c : Cause) (opc : BitVec 8) : (s.raise c opc).faulted = true := by
  rcases s.raise_cases c opc with ⟨fault, hraise⟩ | ⟨-, hraise⟩ <;> rw [hraise]
  · exact fault
  · exact statusFault_faultStatus c opc

theorem issueCommand_faulted {s : State} (w : Word) (fault : s.faulted = true) : issueCommand w s = .next s :=
  if_pos fault

/-- The word R811 writes, as a number: its four bytes each at their weight (R104). -/
theorem faultStatus_toNat (c : Cause) (opc : BitVec 8) :
    (faultStatus c opc).toNat = 1 + 256 * (causeCode c).toNat + 65536 * opc.toNat := by
  rw [faultStatus, joinBytes_toNat]
  simp only [BitVec.ofNat_eq_ofNat, BitVec.toNat_ofNat]
  omega

/-- The low reserved bits of a fault's word, between `FAULT` and `CAUSE`, are 0 (R104, R811). -/
theorem faultStatus_bits7to1 (c : Cause) (opc : BitVec 8) : (faultStatus c opc).extractLsb' 1 7 = 0 := by
  apply BitVec.eq_of_toNat_eq
  rw [BitVec.extractLsb'_toNat, faultStatus_toNat, Nat.shiftRight_eq_div_pow]
  simp only [BitVec.ofNat_eq_ofNat, BitVec.toNat_ofNat]
  omega

/-- Settles O9: in a clean state fault entry is one write of `STATUS`, whose word is known field by field; with a fault
recorded, before or by it, nothing changes. -/
theorem faultEntryRecordsTheFirstFault : Obligations.FaultEntryRecordsTheFirstFault := by
  intro s c opc
  refine ⟨fun clean => ?_, fun fault => State.raise_faulted fault c opc,
    fun w => issueCommand_faulted w (s.faulted_raise c opc)⟩
  refine ⟨s.faulted_raise c opc, ?_⟩
  rw [State.raise_clean clean]
  refine ⟨statusCause_faultStatus c opc, statusFaultOpc_faultStatus c opc, faultStatus_bits7to1 c opc,
    joinBytes_byte3 .., (faultStatus_toNat c opc).trans ?_, rfl⟩
  cases c <;> rfl

/-! ## Illegal words -/

/-- The write of a word the decoder refuses is fault entry with the word's own opcode field (R802). -/
theorem hostSet_cmd_illegal {s : State} {w : Word} {e : DecodeError} (clean : s.clean) (word : decode w = .error e) :
    hostSet 0 w s = .next (s.raise .illegalCommand (opcField w)) := by
  have hreg : regOfIndex s.params 0 = some .cmd := rfl
  simp only [hostSet, hreg, hostStore, accessOf, issueCommand, clean, word, Bool.false_eq_true, if_false]

/-- Settles O6: a word with one of the three conditions is one the decoder refuses. -/
theorem illegalWordRecordsIllegalCommand : Obligations.IllegalWordRecordsIllegalCommand := by
  intro s w rest hhost clean bad
  obtain ⟨e, he⟩ := (decodeRefusesExactlyTheIllegalWords w).mpr bad
  have clean' : (s.setHost rest).clean := clean
  refine ⟨_, (step_action hhost).trans (hostSet_cmd_illegal clean' he), State.faulted_raise .., ?_⟩
  rw [State.raise_clean clean']
  exact ⟨statusCause_faultStatus .., statusFaultOpc_faultStatus .., rfl⟩

/-! ## The way out of a fault -/

/-- While a fault is recorded a host action that is no reset keeps `STATUS`: commands are refused and a further fault
changes nothing (R704, R811, R814). -/
theorem HostEffect.status_of_faulted {a : HostAction} {s t : State} (e : HostEffect s a t) (fault : s.faulted = true) :
    t.status = s.status ∨ a = .reset := by
  cases e with
  | illegal clean => exact absurd (clean.symm.trans fault) Bool.false_ne_true
  | command clean => exact absurd (clean.symm.trans fault) Bool.false_ne_true
  | reset => exact .inr rfl
  | _ => exact .inl (by simp [State.raiseAccess, State.raise_faulted fault])

/-- A `STATUS` of 0, its reset value, records no fault (R104, R900). -/
theorem statusFields_zero : statusFault 0 = false ∧ statusCause 0 = 0 ∧ statusFaultOpc 0 = 0 := by decide

/-- Settles O12: the host actions one by one, the reset state, and the map's row of `STATUS`, which is read-only. -/
theorem onlyResetClearsAFault : Obligations.OnlyResetClearsAFault := by
  refine ⟨fun s t fault h => ?_, fun s t rest hhost h => ?_, fun s v rest hhost => ?_⟩
  · rcases step_cases h with ⟨-, rfl⟩ | ⟨a, rest, hhost, e⟩
    · exact .inl rfl
    · rcases e.status_of_faulted fault with hkeep | rfl
      · exact .inl hkeep
      · exact .inr ⟨rest, hhost⟩
  · rw [step_action hhost] at h
    cases h
    exact statusFields_zero
  · have hreg : regOfIndex (s.setHost rest).params 1 = some .status := rfl
    rw [step_action hhost]
    exact hostSet_forbidden (v := v) (.inr (.inl ⟨.status, hreg, rfl⟩))

/-! ## Idleness -/

/-- Settles O8: with an empty queue no action is taken. -/
theorem idleBlockKeepsItsState : Obligations.IdleBlockKeepsItsState := fun _ => step_idle

end Sys2Proof.Machine
end

section
/-! SUPPORT. Every command is a list of checks with the causes R801 lists for it, and an effect that keeps `STATUS`: so it
always has a next state (R815, O10) and what it faults with is known (R801, R812, O11). -/
namespace Sys2Proof.Machine

theorem OnlyBuf.status {b : Buf} {n : Nat} {s t : State} (h : OnlyBuf b n s t) : t.status = s.status := by
  obtain ⟨m, rfl⟩ := h.exists_setBuf
  exact s.setBuf_status b m

/-- The checks raise the causes of R801's table for the command, in its order, and the effect keeps `STATUS` (R811). -/
theorem exec_eq_runCommand (i : Instr) (s : State) :
    ∃ checks effect, exec i s = s.runCommand i checks effect ∧ checks.map Prod.snd = causesOf i ∧
      effect.status = s.status := by
  cases i with
  | nop => exact ⟨_, _, exec_nop_eq s, rfl, rfl⟩
  | configure => exact ⟨_, _, exec_configure_eq s, rfl, rfl⟩
  | loadpreset n => exact ⟨_, _, exec_loadpreset_eq s n, rfl, rfl⟩
  | clamp => exact ⟨_, _, exec_clamp_eq s, rfl, rfl⟩
  | thresh => exact ⟨_, _, exec_thresh_eq s, rfl, rfl⟩
  | loadwork => exact ⟨_, _, exec_loadwork_eq s, rfl, (s.copyImage_onlyWork _).status⟩
  | diffuse => exact ⟨_, _, exec_diffuse_eq s, rfl, (s.diffuse_onlyWork ..).status⟩
  | dither => exact ⟨_, _, exec_dither_eq s, rfl, (s.dither_onlyWork ..).status⟩
  | pack src => exact ⟨_, _, exec_pack_eq s src, rfl, (s.packImage_onlyOut ..).status⟩
  | raster =>
    obtain ⟨mw, mo, lw, lo, hraster⟩ := s.raster_eq
    exact ⟨_, _, exec_raster_eq s, rfl, by rw [hraster]; rfl⟩

/-- Settles O10: a list of checks and an effect always answer a next state. -/
theorem everyCommandCompletes : Obligations.EveryCommandCompletes := by
  intro i s
  obtain ⟨checks, effect, hexec, -, -⟩ := exec_eq_runCommand i s
  rw [hexec]
  exact s.runCommand_next i checks effect

/-- Settles O11: with a check failed the command is fault entry, with none failed its effect. -/
theorem faultingCommandChangesOnlyStatus : Obligations.FaultingCommandChangesOnlyStatus := by
  intro i s t h
  obtain ⟨checks, effect, hexec, hcauses, hstatus⟩ := exec_eq_runCommand i s
  rw [hexec] at h
  rcases s.runCommand_cases t i checks effect h with ⟨c, hfirst, rfl⟩ | ⟨-, rfl⟩
  · have hc : c ∈ causesOf i := hcauses ▸ List.mem_map_of_mem (firstCause_mem checks c hfirst)
    rcases s.raise_cases c (opcodeOf i) with ⟨-, hraise⟩ | ⟨clean, hraise⟩
    · exact .inl (by rw [hraise])
    · exact .inr ⟨clean, c, hc, hraise⟩
  · exact .inl hstatus

end Sys2Proof.Machine
end

section
/-! SUPPORT. The faults of `CONFIGURE` (R805 to R807, O27) and of the commands that take the image in `IN` (R803, R804, O35),
each where the checks before it pass (R810). -/
namespace Sys2Proof.Machine

/-! ## `CONFIGURE` -/

theorem badKernelShape_eq_true (p : Params) (g : Staged) :
    badKernelShape p g = true ↔ ¬ (1 ≤ g.rows ∧ g.rows ≤ p.kmaxRows ∧ 1 ≤ g.cols ∧ g.cols ≤ p.kmaxCols) := by
  rw [← badKernelShape_eq_false, Bool.not_eq_false]

/-- The check of R806 fails exactly on a row 0 that is all zero. -/
theorem firstNonzeroCol_isNone_iff (p : Params) (g : Staged) :
    (firstNonzeroCol p g).isNone = true ↔ ∀ c, c < g.cols → cellAt p g.kw 0 c = 0 := by
  rcases firstNonzeroCol_cases p g with ⟨c0, hfirst, hlt, hne, -⟩ | ⟨hfirst, hzero⟩
  · simp only [hfirst, Option.isNone_some, Bool.false_eq_true, false_iff]
    exact fun hall => hne (hall c0 hlt)
  · simpa [hfirst] using hzero

/-- Settles O27: in each clause the checks before the named one pass, so its cause is the first of the list. -/
theorem configureFaultsInOrder : Obligations.ConfigureFaultsInOrder := by
  intro s shapeOk row0Zero
  rw [exec_configure_eq]
  refine ⟨fun shape => ?_, fun shape row => ?_, fun shape row den => ?_⟩
  · have hshape := (badKernelShape_eq_true s.params s.staged).mpr shape
    exact State.runCommand_fail _ _ _ _ _ (if_pos hshape)
  · have hshape := (badKernelShape_eq_false s.params s.staged).mpr shape
    have hrow := (firstNonzeroCol_isNone_iff s.params s.staged).mpr row
    exact State.runCommand_fail _ _ _ _ _ (by simp [firstCause_cons, hshape, hrow])
  · have hshape := (badKernelShape_eq_false s.params s.staged).mpr shape
    have hrow := Bool.eq_false_iff.mpr (mt (firstNonzeroCol_isNone_iff s.params s.staged).mp row)
    exact State.runCommand_fail _ _ _ _ _ (by simp [firstCause_cons, hshape, hrow, den])

/-! ## The commands that take the image in `IN` -/

/-- A command whose two checks are the size and the length faults on the size first (R803, R804, R810). -/
theorem State.runCommand_imageFaults (s : State) (i : Instr) (len : Word) (effect : State) :
    let run := s.runCommand i [(s.badDimension, .badDimension), (s.badLength len, .badLength)] effect
    (¬ s.sizeLegal → run = .next (s.raise .badDimension (opcodeOf i))) ∧
    (s.sizeLegal → len.toNat ≠ 4 * s.imageW * s.imageH → run = .next (s.raise .badLength (opcodeOf i))) := by
  refine ⟨fun size => ?_, fun size hlen => ?_⟩
  · exact State.runCommand_fail _ _ _ _ _ (if_pos (s.badDimension_eq_true.mpr size))
  · have hsize := s.badDimension_eq_false.mpr size
    have hlength := (s.badLength_eq_true len).mpr hlen
    exact State.runCommand_fail _ _ _ _ _ (by simp [firstCause_cons, hsize, hlength])

/-- Settles O35: the three commands have the same two checks on `IN_LEN`. -/
theorem imageCommandsCheckSizeThenLength : Obligations.ImageCommandsCheckSizeThenLength := by
  rintro s i (rfl | rfl | rfl)
  · rw [exec_loadwork_eq]
    exact s.runCommand_imageFaults .loadwork s.inLen _
  · rw [exec_dither_eq]
    exact s.runCommand_imageFaults .dither s.inLen _
  · rw [exec_raster_eq]
    exact s.runCommand_imageFaults .raster s.inLen _

end Sys2Proof.Machine
end

section
/-! SUPPORT. The state after reset (R900): the value of every cell of the two kernel arrays and the bytes of the buffers
(O58), and the configuration `CONFIGURE` derives from the staging registers at reset, which is the one already there (R901,
O28). -/
namespace Sys2Proof.Machine

/-! ## Reset -/

/-- Both kernel arrays at reset: the Jarvis-Judice-Ninke weights in three rows of five columns, 0 outside (R122, R128). -/
theorem jjnCells_cellAt {p : Params} {r c : Nat} (hr : r < p.kmaxRows) (hc : c < p.kmaxCols) :
    cellAt p (jjnCells p) r c = if r < 3 ∧ c < 5 then weightAt jjnWeights r c else 0 := by
  rw [jjnCells, cellAt_tabulateCells p _ r c hr hc]
  split
  next => rfl
  next hout => exact weightAt_jjn_outside hout

/-- No byte of a reset block's buffers is written (R221, R900). -/
theorem State.resetBlock_lookup (s : State) (b : Buf) (i : Nat) : (s.resetBlock.buf b).lookup i = none := by
  cases b <;> rfl

theorem step_reset {s : State} {rest : List HostAction} (h : s.host = .reset :: rest) :
    step s = .next (s.setHost rest).resetBlock :=
  step_action h

/-- Settles O58: the step is the reset of the block; its registers are the constants of `resetWith`, its two kernel arrays
are the same one. -/
theorem resetGivesTheStatedValues : Obligations.ResetGivesTheStatedValues := by
  intro s rest h
  refine ⟨_, step_reset h, rfl, rfl, rfl, rfl, rfl, rfl, rfl, rfl, rfl, rfl, rfl, rfl, rfl, rfl, rfl, rfl, rfl, rfl, rfl,
    rfl, rfl, rfl, rfl, fun r c hr hc => ?_, State.resetBlock_lookup _⟩
  exact ⟨jjnCells_cellAt hr hc, jjnCells_cellAt hr hc⟩

/-! ## `CONFIGURE` after reset -/

/-- An array is made from the values at its own cells alone. -/
theorem tabulateCells_congr {p : Params} {f g : Nat → Nat → Word}
    (h : ∀ r c, r < p.kmaxRows → c < p.kmaxCols → f r c = g r c) : tabulateCells p f = tabulateCells p g := by
  refine List.map_congr_left fun k hk => ?_
  have hk : k < p.kmaxRows * p.kmaxCols := List.mem_range.mp hk
  have hcols : 0 < p.kmaxCols := Nat.pos_of_mul_pos_left (Nat.zero_lt_of_lt hk)
  exact h _ _ (Nat.div_lt_of_lt_mul (Nat.mul_comm .. ▸ hk)) (Nat.mod_lt _ hcols)

/-- The search for `c0` finds a column that is not zero and has only zeros before it (R451). -/
theorem firstNonzeroCol_eq_some {p : Params} {g : Staged} {c0 : Nat} (hlt : c0 < g.cols) (hne : cellAt p g.kw 0 c0 ≠ 0)
    (hbefore : ∀ c, c < c0 → cellAt p g.kw 0 c = 0) : firstNonzeroCol p g = some c0 := by
  rw [firstNonzeroCol, List.find?_range_eq_some]
  exact ⟨by simpa using hne, List.mem_range.mpr hlt, fun c hc => by simpa using hbefore c hc⟩

/-- The first nonzero weight of row 0 of the staged kernel at reset is the 7 of column 3 (R454, R455). -/
theorem firstNonzeroCol_atReset {p : Params} (hp : p.legal) : firstNonzeroCol p (Staged.atReset p) = some 3 := by
  obtain ⟨hrows, hcols, -⟩ := kernelShape_of_legal hp
  have hrow0 : ∀ c, c < 5 → cellAt p (Staged.atReset p).kw 0 c = weightAt jjnWeights 0 c := fun c hc =>
    (jjnCells_cellAt (by omega) (by omega)).trans (if_pos ⟨by decide, hc⟩)
  refine firstNonzeroCol_eq_some (by decide : 3 < (5 : Word).toNat) ?_ fun c hc => ?_
  · rw [hrow0 3 (by decide)]
    decide
  · rw [hrow0 c (by omega)]
    interval_cases c <;> rfl

/-- The staged threshold at reset, 128 over 1, is no tie: both tie rules give `CFG_THR` 128 (R453, R454). -/
theorem clampRatio_threshold_atReset (t : RoundTie) : clampRatio t (128 : Word).toInt (1 : Word).toNat = 128 := by
  cases t <;> decide

/-- The staging registers at reset derive the configuration at reset (R454, R901). -/
theorem newConfiguration_atReset (p : Params) : newConfiguration p (Staged.atReset p) 3 = Configuration.atReset p := by
  have hkw : (newConfiguration p (Staged.atReset p) 3).kw = jjnCells p := by
    simp only [newConfiguration, jjnCells]
    refine tabulateCells_congr fun r c hr hc => ?_
    by_cases hin : r < 3 ∧ c < 5
    · exact (if_pos hin).trans (cellAt_tabulateCells p _ r c hr hc)
    · exact (if_neg hin).trans (weightAt_jjn_outside hin).symm
  have hthr : (newConfiguration p (Staged.atReset p) 3).thr = 128 :=
    congrArg (BitVec.ofNat 32) (clampRatio_threshold_atReset p.roundTie)
  rw [Configuration.atReset, ← hkw, ← hthr]
  rfl

/-- Settles O28: the checks pass on the staged default kernel, and the configuration written is the one reset left. -/
theorem configureAfterResetChangesNothing : Obligations.ConfigureAfterResetChangesNothing := by
  intro p hp
  obtain ⟨hrows, hcols, -⟩ := kernelShape_of_legal hp
  refine ⟨rfl, rfl, rfl, rfl, rfl, fun r c hr hc => ?_, ?_⟩
  · exact (jjnCells_cellAt (by omega) (by omega)).trans (if_pos ⟨hr, hc⟩)
  · have shape : badKernelShape p (Staged.atReset p) = false :=
      (badKernelShape_eq_false _ _).mpr
        ⟨(by decide : 1 ≤ (3 : Word).toNat), hrows, (by decide : 1 ≤ (5 : Word).toNat), hcols⟩
    have hcfg : newConfiguration p (Staged.atReset p) 3 = (State.resetWith p).cfg := newConfiguration_atReset p
    calc exec .configure (State.resetWith p)
      _ = .next ((State.resetWith p).setCfg (newConfiguration p (Staged.atReset p) 3)) :=
        exec_configure_ready shape (firstNonzeroCol_atReset hp) (by decide : (1 : Word) ≠ 0)
      _ = .next (State.resetWith p) := by rw [hcfg]; rfl

end Sys2Proof.Machine
end
